-- ==== Sys2Proof/Word.lean ====
section
/-! DEFINITION. The word types of the controller (spec/00_scope.md R8, R9): the byte every access moves, the
word `read_word()` returns, and the small fields a register access is decoded from (spec/30_encoding.md R80, R81). -/

namespace Sys2Proof

/-- `u8` of R9. -/
abbrev Byte := BitVec 8

/-- `u32` of R9, the result of `read_word()` (spec/43_sector_reader.md R216). -/
abbrev Word := BitVec 32

/-- A physical address on the guest's bus (spec/20_memory.md R60, R61). -/
abbrev Address := BitVec 32

/-- The low 2 bits of the address of an access (R80). -/
abbrev Slot := BitVec 2

/-- The low 2 bits of the status register, which select the bank (R80; spec/10_state.md R22). -/
abbrev Index := BitVec 2

/-- The decode key of R81: `dir` in bit 4, `slot` in bits 3:2, `index` in bits 1:0. -/
abbrev Key := BitVec 5

/-- The direction of an access (R80); as a key bit, 0 is a read and 1 a write (R81). -/
inductive Dir where
  | read
  | write
  deriving DecidableEq, Repr

/-- A byte with the one bit `n` equal to `b` and every other bit 0: a flag placed into a byte (R9). -/
def bitAt (b : Bool) (n : Nat) : Byte := if b then 1#8 <<< n else 0#8

end Sys2Proof
end

