-- ==== Sys2Proof/Config.lean ====
section
/-! DEFINITION. What is fixed for a run: the parameters of spec/00_scope.md R7, the data a disc image holds
(spec/44_host_interface.md R230), and the values the spec leaves open, each an opaque constant that no proof can see
into (spec/93_implementation_defined.md U5 to U8). -/

namespace Sys2Proof

/-- A whole sector (`SECTOR_BYTES` = 2352 of R7), bytes numbered from 0 in the order the backend returns them
(spec/20_memory.md R65, R74). -/
abbrev SectorBytes := Vector Byte 2352

/-- The kind the backend gives a sector (spec/44_host_interface.md R230). -/
inductive SectorKind where
  | data
  | audio
  | invalid
  deriving DecidableEq, Repr, Inhabited

/-- One answer of `Disc.read`: the bytes and the kind (R230). -/
structure Sector where
  bytes : SectorBytes
  kind : SectorKind
  deriving DecidableEq, Repr, Inhabited

/-- An MSF triple (spec/41_command_interpreter.md R151); integers, as R230 says of the backend's positions. -/
structure Position where
  minutes : Int
  seconds : Int
  frames : Int
  deriving DecidableEq, Repr, Inhabited

/-- A disc image as plain data: the answers the image itself determines. An answer it does not record (a sector or a
track outside the image, or any query of the empty image) is the backend's, and free (R231, R233; log 6). -/
structure DiscImage where
  /-- `is_empty()`. -/
  isEmpty : Bool
  /-- `track_count()`, at least 0 (R230), where the image determines it. -/
  trackCount : Option Nat
  /-- `size()`, where the image determines it. -/
  size : Option Position
  /-- `track_start(n)` for the tracks recorded, by track number. -/
  tracks : List (Nat × Position)
  /-- `read(lba)` for the sectors inside the image, by LBA. -/
  sectors : List (Int × Sector)
  deriving DecidableEq, Repr, Inhabited

/-- The one canonical form of an image: track numbers and LBAs strictly rising. -/
def DiscImage.wf (image : DiscImage) : Bool :=
  decide ((image.tracks.map (·.1)).Pairwise (· < ·)) && decide ((image.sectors.map (·.1)).Pairwise (· < ·))

/-- The image the controller holds before any insertion (R233; spec/10_state.md R44; D5): empty, every other answer
the oracle's. -/
def DiscImage.blank : DiscImage :=
  { isEmpty := true, trackCount := none, size := none, tracks := [], sectors := [] }

namespace Config

/-- `FIFO_DEPTH` (R7). -/
def fifoDepth : Nat := 16

/-- `SECTOR_SIZE_DATA` (R7; spec/10_state.md R32). -/
def sectorSizeData : Nat := 0x800

/-- `SECTOR_SIZE_WHOLE` (R7; spec/10_state.md R32). -/
def sectorSizeWhole : Nat := 0x924

/-- Start offset of a data-only sector: 12 sync bytes and 12 header bytes are skipped (spec/10_state.md R32). -/
def dataOffsetData : Nat := 24

/-- Start offset of a whole sector: 12 sync bytes are skipped (spec/10_state.md R32). -/
def dataOffsetWhole : Nat := 12

/-- `MMIO_BASE` (R7). -/
def mmioBase : Nat := 0x1F801800

/-- `MMIO_SIZE` (R7). -/
def mmioSize : Nat := 4

/-- `LBA_LEAD_IN` (R7). -/
def lbaLeadIn : Int := 150

/-- `FRAMES_PER_SECOND` (R7). -/
def framesPerSecond : Int := 75

/-- `SYNC_MAGIC` (R7). -/
def syncMagic : List Byte := [0x00, 0xFF, 0xFF, 0xFF, 0xFF, 0xFF, 0xFF, 0xFF, 0xFF, 0xFF, 0xFF, 0x00]

/-- The open part of `READ_SECTOR_DELAY_STEPS`: any natural number (D18; log 5). -/
opaque delayBeyondOne : Nat

/-- `READ_SECTOR_DELAY_STEPS`, an integer at least 1 and otherwise free (R7; D18; U5; log 5). -/
def readSectorDelaySteps : Int := delayBeyondOne + 1

/-- The byte the `n`-th draw gives (spec/00_scope.md R12 "draw u8"; U8; log 4). -/
opaque freeByte : Nat → Byte

/-- The backend's `read` where the image records no sector (spec/44_host_interface.md R231; U7; log 6). -/
opaque backendRead : DiscImage → Int → Sector

/-- The backend's `track_start` where the image records no such track (R231; U7; log 6). -/
opaque backendTrackStart : DiscImage → Nat → Position

/-- The backend's `track_count` of an image that does not determine it (R233; U7; log 6). -/
opaque backendTrackCount : DiscImage → Nat

/-- The backend's `size` of an image that does not determine it (R233; U7; log 6). -/
opaque backendSize : DiscImage → Position

/-- `dec_to_bcd` of a negative number: R150 gives it only for `n ≥ 0` (log 7). -/
opaque bcdOfNegative : Int → Byte

end Config

end Sys2Proof
end

