-- ==== Sys2Proof/Machine/Disc.lean ====
section
/-! DEFINITION. The queries of the disc-image capability (spec/44_host_interface.md R230): what the image records is
its answer, and anything else is the backend's, a free value of the image and the argument (R231, R233; log 6). They
change nothing in the controller (spec/20_memory.md R75). -/

namespace Sys2Proof.Machine

/-- `Disc.read(lba)`. -/
def discRead (image : DiscImage) (lba : Int) : Sector :=
  match image.sectors.lookup lba with
  | some sector => sector
  | none => Config.backendRead image lba

/-- `Disc.track_start(n)`. -/
def discTrackStart (image : DiscImage) (track : Nat) : Position :=
  match image.tracks.lookup track with
  | some position => position
  | none => Config.backendTrackStart image track

/-- `Disc.track_count()`. -/
def discTrackCount (image : DiscImage) : Nat :=
  match image.trackCount with
  | some n => n
  | none => Config.backendTrackCount image

/-- `Disc.size()`. -/
def discSize (image : DiscImage) : Position :=
  match image.size with
  | some position => position
  | none => Config.backendSize image

end Sys2Proof.Machine
end

