-- ==== Sys2Proof/Machine/State.lean ====
section
/-! DEFINITION. The state of the controller (spec/10_state.md R20), the reasons it stops, and the state right after
reset (R50). The last three fields of `State` are the model's own, for the environment and the observables. -/

namespace Sys2Proof.Machine

/-- The fault reasons of spec/60_exceptions.md R259. The entry point that meets the cause records the reason in the
state; from then on no entry point has a transition (R258), and every step answers `fault` with that reason. Each is
safe: the model stops where the software aborts (D21). -/
inductive Fault where
  /-- `ParamFifoOverflow`: WR_PARAM with 16 parameters pending (R111). -/
  | paramFifoOverflow
  /-- `ParamFifoEmpty`: `get_param` in Setloc, Setfilter, Setmode, GetTD or Test with no parameter pending (R143). -/
  | paramFifoEmpty
  /-- `PlayWithParams`: Play or GetlocP with a parameter pending (R162, R163). -/
  | playWithParams
  /-- `SetmodeBit4`: Setmode with bit 4 of the new mode set (R172). -/
  | setmodeBit4
  deriving DecidableEq, Repr

/-- What the machine has no meaning for. -/
inductive Refusal where
  /-- An instruction without a meaning yet, by its mnemonic. Safe. -/
  | notModelled (mnemonic : String)
  /-- A 16-bit or 32-bit guest access: it has no transition of this block (spec/20_memory.md R63; U9). Raised by the
  step. Safe. -/
  | wideAccess
  /-- A guest access outside 0x1F801800 to 0x1F801803: no transaction of this block (spec/20_memory.md R61). Raised by
  the step. Safe. -/
  | outsideWindow
  deriving DecidableEq, Repr

/-- The codes of `irq_fifo` (spec/10_state.md R36; spec/60_exceptions.md R251). -/
inductive IrqCode where
  /-- 1, data ready. -/
  | secondInt1
  /-- 2, secondary completion of a command. -/
  | secondInt2
  /-- 3, primary acknowledge of a command. -/
  | firstInt3
  /-- 5, command error. -/
  | errorInt5
  deriving DecidableEq, Repr

/-- The u8 a code is stored as (R36). -/
def IrqCode.toByte : IrqCode → Byte
  | .secondInt1 => 1
  | .secondInt2 => 2
  | .firstInt3 => 3
  | .errorInt5 => 5

/-- The tag of a raise; the block has the one source "CDROM" (spec/60_exceptions.md R253; `IRQ_SOURCE` of R7). -/
inductive IrqSource where
  | cdrom
  deriving DecidableEq, Repr

/-- What a claim may observe, besides the fault (spec/44_host_interface.md R242). -/
inductive Output where
  /-- The byte a `read_reg` returned. -/
  | regByte (value : Byte)
  /-- The word a `read_word` returned. -/
  | dmaWord (value : Word)
  /-- One `Sink.raise(source)` (R236). -/
  | raised (source : IrqSource)
  deriving DecidableEq, Repr

/-- One call the environment makes (spec/00_scope.md R6; spec/30_encoding.md R92). -/
inductive Transaction where
  /-- The guest reads a byte at a physical address. -/
  | guestRead (address : Address)
  /-- The guest writes a byte at a physical address. -/
  | guestWrite (address : Address) (value : Byte)
  /-- The guest makes a 16-bit or 32-bit access at a physical address. -/
  | guestWide (address : Address)
  /-- The host calls `step()`. -/
  | hostStep
  /-- The host's DMA path calls `read_word()`. -/
  | hostReadWord
  /-- The host loader calls `insert_disk_file(image)`. -/
  | hostInsert (image : DiscImage)
  deriving DecidableEq, Repr

/-- The state record of R20, then the model's own fields. -/
structure State where
  /-- `status.index` (R22). -/
  index : Index
  /-- `status.adpcm_fifo_empty` (R25). -/
  adpcmFifoEmpty : Bool
  /-- `status.transmit_busy` (R26). -/
  transmitBusy : Bool
  /-- The stat byte (R24, R27 to R30); its fields are read through `Flags.lean`. -/
  stat : Byte
  /-- The mode byte (R31, R32). -/
  mode : Byte
  /-- `int_enable` (R33). -/
  intEnable : Byte
  /-- `param_fifo`, front first (R34). -/
  paramFifo : List Byte
  /-- `resp_fifo`, front first (R35). -/
  respFifo : List Byte
  /-- `irq_fifo`, front first (R36). -/
  irqFifo : List IrqCode
  /-- `data_buf` (R37). -/
  dataBuf : SectorBytes
  /-- `data_loaded` (R37). -/
  dataLoaded : Bool
  /-- `data_buffer_index`, the bytes delivered since the buffer was loaded (R37). -/
  dataBufferIndex : Nat
  /-- `read_buf` (R38). -/
  readBuf : SectorBytes
  /-- `seek_sector` (R40). -/
  seekSector : Int
  /-- `read_sector` (R41). -/
  readSector : Int
  /-- `steps_until_read_sect` (R42). -/
  stepsUntilReadSect : Int
  /-- `muted` (R43). -/
  muted : Bool
  /-- `disc` (R44). -/
  disc : DiscImage
  /-- `faulted` with the reason that set it (R45; spec/60_exceptions.md R258). -/
  faulted : Option Fault
  /-- The model's own: the calls the environment makes next, in order (log 2). -/
  pending : List Transaction
  /-- The model's own: what has been observed so far, oldest first (log 3). -/
  trace : List Output
  /-- The model's own: how many free bytes have been drawn (log 4). -/
  draws : Nat
  deriving DecidableEq, Repr

/-- Construction of the controller (R50; spec/70_reset_and_hazards.md R280). -/
def State.reset : State where
  index := 0
  adpcmFifoEmpty := false
  transmitBusy := false
  stat := 0x10
  mode := 0x00
  intEnable := 0x00
  paramFifo := []
  respFifo := []
  irqFifo := []
  dataBuf := Vector.replicate 2352 0
  dataLoaded := false
  dataBufferIndex := 0
  readBuf := Vector.replicate 2352 0
  seekSector := 0
  readSector := 0
  stepsUntilReadSect := Config.readSectorDelaySteps
  muted := false
  disc := DiscImage.blank
  faulted := none
  pending := []
  trace := []
  draws := 0

/-- What an entry point answers. -/
abbrev Result := Host.Outcome State Fault Refusal

end Sys2Proof.Machine
end

