-- ==== Sys2Proof/Machine/Flags.lean ====
section
/-! DEFINITION. The bit fields of the block: the stat byte (spec/10_state.md R24, R27 to R30), the mode byte (R31,
R32), the derived status bits and the status byte (R21, R23). -/

namespace Sys2Proof.Machine

/-! ### The stat byte -/

/-- The fields of the stat byte (R24). -/
inductive StatField where
  | error
  | spindleMotorOn
  | seekError
  | idError
  | shellOpen
  | reading
  | seeking
  | playing
  deriving DecidableEq, Repr

/-- The bit number of a field (R24; the order is decision D1, log 11). -/
def StatField.bit : StatField → Nat
  | .error => 0
  | .spindleMotorOn => 1
  | .seekError => 2
  | .idError => 3
  | .shellOpen => 4
  | .reading => 5
  | .seeking => 6
  | .playing => 7

/-- Read a field of a stat byte (spec/00_scope.md R11). -/
def statField (stat : Byte) (f : StatField) : Bool := stat.getLsbD f.bit

/-- Write a field of a stat byte: only that bit changes (spec/00_scope.md R11). -/
def setStatField (stat : Byte) (f : StatField) (b : Bool) : Byte :=
  (stat &&& ~~~(1#8 <<< f.bit)) ||| bitAt b f.bit

/-- The states of the read/play state machine (R30). -/
inductive DriveState where
  | stopped
  | reading
  | seeking
  | playing
  deriving DecidableEq, Repr

/-- The bits 5 to 7 of the stat byte that stand for a drive state (the table of R30). -/
def DriveState.bits : DriveState → Byte
  | .stopped => 0x00
  | .reading => 0x20
  | .seeking => 0x40
  | .playing => 0x80

/-- `set_state` writes all three bits in one write (R30). -/
def setDriveBits (stat : Byte) (d : DriveState) : Byte := (stat &&& 0x1F) ||| d.bits

/-- Is the drive Reading (R30)? By the reading bit (log 10). -/
def isReading (stat : Byte) : Bool := statField stat .reading

/-- Is the drive Playing (R30)? By the playing bit (log 10). -/
def isPlaying (stat : Byte) : Bool := statField stat .playing

/-! ### The mode byte -/

/-- `mode` bit 5 selects whole sectors (R31, R32). -/
def wholeSector (mode : Byte) : Bool := mode.getLsbD 5

/-- `sector_size(mode)` (R32). -/
def sectorSize (mode : Byte) : Nat := if wholeSector mode then Config.sectorSizeWhole else Config.sectorSizeData

/-- `data_offset(mode)` (R32). -/
def dataOffset (mode : Byte) : Nat := if wholeSector mode then Config.dataOffsetWhole else Config.dataOffsetData

/-! ### The status byte -/

/-- Status bit 3 (R23). -/
def paramFifoEmpty (s : State) : Bool := s.paramFifo.length == 0

/-- Status bit 4 (R23). -/
def paramFifoWriteReady (s : State) : Bool := decide (s.paramFifo.length < Config.fifoDepth)

/-- Status bit 5 (R23). -/
def responseFifoNotEmpty (s : State) : Bool := decide (0 < s.respFifo.length)

/-- Status bit 6 (R23, R39): a sector is loaded and bytes of it remain under the current mode. -/
def dataFifoNotEmpty (s : State) : Bool := s.dataLoaded && decide (s.dataBufferIndex < sectorSize s.mode)

/-- The status byte, assembled at the moment of the read (R21). -/
def statusByte (s : State) : Byte :=
  s.index.setWidth 8
    ||| bitAt s.adpcmFifoEmpty 2
    ||| bitAt (paramFifoEmpty s) 3
    ||| bitAt (paramFifoWriteReady s) 4
    ||| bitAt (responseFifoNotEmpty s) 5
    ||| bitAt (dataFifoNotEmpty s) 6
    ||| bitAt s.transmitBusy 7

/-! ### The interrupt flag and the raise condition -/

/-- The byte a read of slot 3 at an odd index returns: only the front code shows (spec/40_register_file.md R105). -/
def intFlagByte (s : State) : Byte :=
  match s.irqFifo with
  | code :: _ => 0xE0 ||| (code.toByte &&& 7)
  | [] => 0xE0

/-- The condition under which a `step()` raises: a bitwise test of the front code against the enable bits
(spec/43_sector_reader.md R202). -/
def raisePending (s : State) : Bool :=
  match s.irqFifo with
  | code :: _ => (code.toByte &&& 7) &&& (s.intEnable &&& 7) != 0
  | [] => false

end Sys2Proof.Machine
end

