-- ==== Sys2Proof/Machine/Ops.lean ====
section
/-! DEFINITION. The operations every meaning is built from: the frame of an entry point, the fault entry, the output
trace, the bounded FIFOs and the response helper, the drive state, the command frame, and one byte of the data buffer.

`raiseFault` is the block's one exception entry (spec/60_exceptions.md R258). It has no return: the fault flag is never
cleared. An interrupt saves no state and transfers no control (R260); its "return" is `popIrq`, the acknowledge (R261). -/

namespace Sys2Proof.Machine

/-! ### Entry points and faults -/

/-- The frame of every entry point: once the model has faulted there is no transition (spec/40_register_file.md R100;
spec/60_exceptions.md R258); otherwise the effect is one atomic transition (spec/20_memory.md R68). -/
def entry (s : State) (effect : State → State) : Result :=
  match s.faulted with
  | some reason => .fault reason
  | none => .next (effect s)

/-- `raise Fault(reason)`: record the fault; the caller abandons the rest of the entry point (R258). -/
def State.raiseFault (s : State) (reason : Fault) : State := { s with faulted := some reason }

/-- Add one observable event (spec/44_host_interface.md R236, R242). -/
def State.emit (s : State) (o : Output) : State := { s with trace := s.trace ++ [o] }

/-! ### FIFOs -/

/-- Push onto a FIFO bounded at 16, dropping what does not fit (spec/41_command_interpreter.md R142). -/
def pushBounded {α : Type} (q : List α) (v : α) : List α := if q.length < Config.fifoDepth then q ++ [v] else q

/-- Push several elements in order, each on its own (R141, R142). -/
def pushAllBounded {α : Type} (q : List α) (vs : List α) : List α := vs.foldl pushBounded q

/-- `push_response(code, bytes)` (R141): the code and each byte are dropped independently when their FIFO is full. -/
def State.pushResponse (s : State) (code : IrqCode) (bytes : List Byte) : State :=
  { s with irqFifo := pushBounded s.irqFifo code, respFifo := pushAllBounded s.respFifo bytes }

/-- A stat response `INTn(stat)`: `stat` as it is at the moment of the push (R144). -/
def State.pushStat (s : State) (code : IrqCode) : State := s.pushResponse code [s.stat]

/-- Pop one interrupt code, if there is one (spec/40_register_file.md R116; spec/60_exceptions.md R261). -/
def State.popIrq (s : State) : State := { s with irqFifo := s.irqFifo.tail }

/-! ### Drive state -/

/-- `set_state(d)` (spec/10_state.md R30). -/
def State.setDrive (s : State) (d : DriveState) : State := { s with stat := setDriveBits s.stat d }

/-- `read_sector <- seek_sector` (spec/10_state.md R40, R41). -/
def State.startAtSeek (s : State) : State := { s with readSector := s.seekSector }

/-! ### The command frame -/

/-- The first two effects of `execute_command` (spec/41_command_interpreter.md R140). -/
def State.clearResponses (s : State) : State := { s with irqFifo := [], respFifo := [] }

/-- The last three effects of `execute_command` (R146, R147). -/
def State.finishCommand (s : State) : State :=
  { s with paramFifo := [], transmitBusy := true, adpcmFifoEmpty := false }

/-- `execute_command` around a command rule (R140). If the rule raises a fault, the rest of the frame is abandoned. -/
def commandFrame (rule : State → State) (s : State) : State :=
  match (rule s.clearResponses).faulted with
  | some _ => rule s.clearResponses
  | none => (rule s.clearResponses).finishCommand

/-! ### The data buffer -/

/-- Byte `k` of a sector (spec/20_memory.md R65); no rule reads past byte 2351. -/
def sectorByte (bytes : SectorBytes) (k : Nat) : Byte := bytes.toList.getD k 0

/-- The value `read_byte()` returns (spec/43_sector_reader.md R214, R215). -/
def readByteValue (s : State) : Byte :=
  if dataFifoNotEmpty s then sectorByte s.dataBuf (dataOffset s.mode + s.dataBufferIndex) else 0x00

/-- The state `read_byte()` leaves: the cursor advances only while bytes remain (R214, R215). -/
def State.advanceCursor (s : State) : State :=
  if dataFifoNotEmpty s then { s with dataBufferIndex := s.dataBufferIndex + 1 } else s

end Sys2Proof.Machine
end

