-- ==== Sys2Proof/Syntax.lean ====
section
/-! DEFINITION. The instructions of the block: one constructor for each row of spec/opcode_table.json, in the table's
order. The first 18 are register accesses (spec/30_encoding.md R82, R83), the last 21 are commands (R85, R88).

A register access carries what its word carries: the index the access is decoded in, where the row's mask leaves it
free (log 16), and the written byte, also where the cell ignores it (R84). A command is one opcode byte; its operands
are not part of the word but stand in `param_fifo` (R86). -/

namespace Sys2Proof

/-- One row of spec/opcode_table.json each. -/
inductive Instr where
  /-- RD_STATUS, key `000ii` (R101). -/
  | rdStatus (index : Index)
  /-- RD_RESPONSE, key `001ii` (R102). -/
  | rdResponse (index : Index)
  /-- RD_DATA, key `010ii` (R103). -/
  | rdData (index : Index)
  /-- RD_INT_ENABLE, key `011i0` (R104): only an even index is well formed. -/
  | rdIntEnable (index : Index)
  /-- RD_INT_FLAG, key `011i1` (R105): only an odd index is well formed. -/
  | rdIntFlag (index : Index)
  /-- WR_INDEX, key `100ii` (R106): `index` is the bank the write is decoded in, `value` the byte written. -/
  | wrIndex (index : Index) (value : Byte)
  /-- WR_COMMAND, key `10100` (R107). -/
  | wrCommand (value : Byte)
  /-- WR_SOUND_MAP, key `10101` (R108). -/
  | wrSoundMap (value : Byte)
  /-- WR_VOL_1_2, key `10110` (R109). -/
  | wrVol12 (value : Byte)
  /-- WR_VOL_1_3, key `10111` (R110). -/
  | wrVol13 (value : Byte)
  /-- WR_PARAM, key `11000` (R111). -/
  | wrParam (value : Byte)
  /-- WR_INT_ENABLE, key `11001` (R112). -/
  | wrIntEnable (value : Byte)
  /-- WR_VOL_2_2, key `11010` (R113). -/
  | wrVol22 (value : Byte)
  /-- WR_VOL_2_3, key `11011` (R114). -/
  | wrVol23 (value : Byte)
  /-- WR_REQUEST, key `11100` (R115). -/
  | wrRequest (value : Byte)
  /-- WR_INT_ACK, key `11101` (R116). -/
  | wrIntAck (value : Byte)
  /-- WR_VOL_APPLY_2, key `11110` (R117). -/
  | wrVolApply2 (value : Byte)
  /-- WR_VOL_APPLY_3, key `11111` (R118). -/
  | wrVolApply3 (value : Byte)
  /-- GETSTAT, opcode 0x01 (R160). -/
  | getstat
  /-- SETLOC, opcode 0x02 (R161). -/
  | setloc
  /-- PLAY, opcode 0x03 (R162). -/
  | play
  /-- READN, opcode 0x06 (R164). -/
  | readN
  /-- MOTORON, opcode 0x07 (R165). -/
  | motorOn
  /-- STOP, opcode 0x08 (R166). -/
  | stop
  /-- PAUSE, opcode 0x09 (R167). -/
  | pause
  /-- INIT, opcode 0x0A (R168). -/
  | init
  /-- MUTE, opcode 0x0B (R169). -/
  | mute
  /-- DEMUTE, opcode 0x0C (R170). -/
  | demute
  /-- SETFILTER, opcode 0x0D (R171). -/
  | setfilter
  /-- SETMODE, opcode 0x0E (R172). -/
  | setmode
  /-- GETPARAM, opcode 0x0F (R173). -/
  | getparam
  /-- GETLOCP, opcode 0x11 (R163). -/
  | getlocP
  /-- GETTN, opcode 0x13 (R174). -/
  | getTN
  /-- GETTD, opcode 0x14 (R175). -/
  | getTD
  /-- SEEKL, opcode 0x15 (R176). -/
  | seekL
  /-- TEST, opcode 0x19 (R177). -/
  | test
  /-- GETID, opcode 0x1A (R178). -/
  | getID
  /-- READS, opcode 0x1B (R179). -/
  | readS
  /-- CMD_ERROR (R180): `op` is one of the 236 unassigned opcode bytes of R88. -/
  | cmdError (op : Byte)
  deriving DecidableEq, Repr

end Sys2Proof
end

