-- ==== Sys2Proof/Machine/Operands.lean ====
section
/-! DEFINITION. Operands: the fields of a written value (spec/30_encoding.md R84), `get_param` and the number of
parameters each command consumes (R86; spec/41_command_interpreter.md R143), and the BCD and MSF/LBA arithmetic
(R87; R149 to R152). -/

namespace Sys2Proof.Machine

/-! ### Fields of a written value (R84) -/

/-- value[1:0] of a write of slot 0: the new index. -/
def newIndex (value : Byte) : Index := value.extractLsb' 0 2

/-- value[7] of WR_REQUEST: "want data". -/
def wantData (value : Byte) : Bool := value.getLsbD 7

/-- value[6] of WR_INT_ACK: also clear `param_fifo`. -/
def alsoClearParams (value : Byte) : Bool := value.getLsbD 6

/-! ### Parameters -/

/-- `get_param()`: pop the front parameter and go on with it, or fault (R143). -/
def getParam (s : State) (go : Byte → State → State) : State :=
  match s.paramFifo with
  | [] => s.raiseFault .paramFifoEmpty
  | v :: rest => go v { s with paramFifo := rest }

/-- How many parameters a command consumes (R86); a register access has none. -/
def operandCount : Instr → Nat
  | .setloc => 3
  | .setfilter => 2
  | .setmode | .getTD | .test => 1
  | .getstat | .play | .readN | .motorOn | .stop | .pause | .init | .mute | .demute | .getparam | .getlocP | .getTN
  | .seekL | .getID | .readS | .cmdError _ => 0
  | .rdStatus _ | .rdResponse _ | .rdData _ | .rdIntEnable _ | .rdIntFlag _ | .wrIndex _ _ | .wrCommand _ | .wrSoundMap _
  | .wrVol12 _ | .wrVol13 _ | .wrParam _ | .wrIntEnable _ | .wrVol22 _ | .wrVol23 _ | .wrRequest _ | .wrIntAck _
  | .wrVolApply2 _ | .wrVolApply3 _ => 0

/-! ### BCD (R149, R150) -/

/-- `bcd_to_dec(b) = 10 * b[7:4] + b[3:0]`, with no validity check (R149). -/
def bcdToDec (b : Byte) : Nat := 10 * (b.extractLsb' 4 4).toNat + (b.extractLsb' 0 4).toNat

/-- `dec_to_bcd(n)` for `n ≥ 0` (R150). -/
def natToBcd (n : Nat) : Byte := BitVec.ofNat 8 (((n / 10) <<< 4) ||| (n % 10))

/-- `dec_to_bcd(n)` (R150); the rule gives no result for a negative number, so that one is free (log 7). -/
def decToBcd (n : Int) : Byte := if 0 ≤ n then natToBcd n.toNat else Config.bcdOfNegative n

/-! ### Positions (R151, R152) -/

/-- `msf_to_lba(m, s, f)` (R151). -/
def msfToLba (m s f : Int) : Int := (m * 60 + s) * Config.framesPerSecond + f - Config.lbaLeadIn

/-- `lba_to_msf(l)` for `l + 150 ≥ 0` (R152); no command uses it. -/
def lbaToMsf (l : Int) : Position :=
  { minutes := (l + Config.lbaLeadIn) / 4500
    seconds := (l + Config.lbaLeadIn) / Config.framesPerSecond % 60
    frames := (l + Config.lbaLeadIn) % Config.framesPerSecond }

end Sys2Proof.Machine
end

