-- ==== Sys2Proof/Machine/Commands.lean ====
section
/-! DEFINITION. The commands (spec/42_commands.md R160 to R180), each inside the frame of
spec/41_command_interpreter.md R140, and WR_COMMAND, which selects one by the whole opcode byte (R107, R145). Effects
stand in the order the rules give them (R144, R148). -/

namespace Sys2Proof.Machine

/-- The response of every command error, `INT5(0x11, 0x40)` (R177, R180). -/
def pushCommandError (s : State) : State := s.pushResponse .errorInt5 [0x11, 0x40]

/-- Play's rule (R162), also GetlocP's (R163). -/
def playRule (s : State) : State :=
  if s.paramFifo.length = 0 then ((s.setDrive .playing).startAtSeek).pushStat .firstInt3
  else s.raiseFault .playWithParams

/-- ReadN's rule (R164), also ReadS's (R179). -/
def readRule (s : State) : State := ((s.setDrive .reading).startAtSeek).pushStat .firstInt3

/-- Setloc's rule (R161). -/
def setlocRule (s : State) : State :=
  getParam s fun mm s => getParam s fun ss s => getParam s fun ff s =>
    { s.pushStat .firstInt3 with seekSector := msfToLba (bcdToDec mm) (bcdToDec ss) (bcdToDec ff) }

/-- MotorOn's rule (R165). -/
def motorOnRule (s : State) : State :=
  ({ s with stat := setStatField s.stat .spindleMotorOn true }.pushStat .firstInt3).pushStat .secondInt2

/-- Stop's rule (R166). -/
def stopRule (s : State) : State :=
  let t := s.setDrive .stopped
  ({ t with stat := setStatField t.stat .spindleMotorOn false }.pushStat .firstInt3).pushStat .secondInt2

/-- Pause's rule (R167): INT3 carries the state before, INT2 the state after. -/
def pauseRule (s : State) : State := ((s.pushStat .firstInt3).setDrive .stopped).pushStat .secondInt2

/-- Init's rule (R168). -/
def initRule (s : State) : State :=
  { s.pushStat .firstInt3 with stat := setStatField 0x00 .spindleMotorOn true, mode := 0x00 }.pushStat .secondInt2

/-- Setfilter's rule (R171): the raw bytes echoed through `dec_to_bcd`; nothing is stored. -/
def setfilterRule (s : State) : State :=
  getParam s fun file s => getParam s fun channel s =>
    s.pushResponse .firstInt3 [s.stat, decToBcd file.toNat, decToBcd channel.toNat]

/-- Setmode's rule (R172): the push and the write come before the assertion on bit 4. -/
def setmodeRule (s : State) : State :=
  getParam s fun m s =>
    let t := { s.pushStat .firstInt3 with mode := m }
    if m.getLsbD 4 then t.raiseFault .setmodeBit4 else t

/-- GetTN's rule (R174). -/
def getTNRule (s : State) : State :=
  s.pushResponse .firstInt3 [s.stat, decToBcd 1, decToBcd (discTrackCount s.disc)]

/-- The position GetTD reports for a track: track 0 is the whole disc's size (R175). -/
def tocPosition (image : DiscImage) (track : Nat) : Position :=
  if track = 0 then discSize image else discTrackStart image track

/-- GetTD's rule (R175). -/
def getTDRule (s : State) : State :=
  getParam s fun t s =>
    s.pushResponse .firstInt3
      [s.stat, decToBcd (tocPosition s.disc (bcdToDec t)).minutes, decToBcd (tocPosition s.disc (bcdToDec t)).seconds]

/-- SeekL's rule (R176): completion is signalled at once. -/
def seekLRule (s : State) : State :=
  (((s.pushStat .firstInt3).setDrive .seeking).startAtSeek).pushStat .secondInt2

/-- Test's rule (R177): an unknown sub-function is the guest-visible error, not a fault. -/
def testRule (s : State) : State :=
  getParam s fun sub s =>
    if sub = 0x20 then s.pushResponse .firstInt3 [0x94, 0x09, 0x19, 0xC0] else pushCommandError s

/-- GetID's rule (R178): the shell test comes first. -/
def getIDRule (s : State) : State :=
  if statField s.stat .shellOpen then s.pushResponse .errorInt5 [0x11, 0x80]
  else if s.disc.isEmpty then
    (s.pushStat .firstInt3).pushResponse .errorInt5 [0x08, 0x40, 0x00, 0x00, 0x00, 0x00, 0x00, 0x00]
  else
    (s.pushStat .firstInt3).pushResponse .secondInt2 [0x02, 0x00, 0x20, 0x00, 0x53, 0x43, 0x45, 0x41]

/-- GETSTAT (R160). -/
def execGetstat (s : State) : Result := entry s (commandFrame fun s => s.pushStat .firstInt3)

/-- SETLOC (R161). -/
def execSetloc (s : State) : Result := entry s (commandFrame setlocRule)

/-- PLAY (R162). -/
def execPlay (s : State) : Result := entry s (commandFrame playRule)

/-- READN (R164). -/
def execReadN (s : State) : Result := entry s (commandFrame readRule)

/-- MOTORON (R165). -/
def execMotorOn (s : State) : Result := entry s (commandFrame motorOnRule)

/-- STOP (R166). -/
def execStop (s : State) : Result := entry s (commandFrame stopRule)

/-- PAUSE (R167). -/
def execPause (s : State) : Result := entry s (commandFrame pauseRule)

/-- INIT (R168). -/
def execInit (s : State) : Result := entry s (commandFrame initRule)

/-- MUTE (R169). -/
def execMute (s : State) : Result := entry s (commandFrame fun s => { s with muted := true }.pushStat .firstInt3)

/-- DEMUTE (R170). -/
def execDemute (s : State) : Result := entry s (commandFrame fun s => { s with muted := false }.pushStat .firstInt3)

/-- SETFILTER (R171). -/
def execSetfilter (s : State) : Result := entry s (commandFrame setfilterRule)

/-- SETMODE (R172). -/
def execSetmode (s : State) : Result := entry s (commandFrame setmodeRule)

/-- GETPARAM (R173): two constant zero bytes. -/
def execGetparam (s : State) : Result :=
  entry s (commandFrame fun s => s.pushResponse .firstInt3 [s.stat, 0x00, 0x00])

/-- GETLOCP (R163): behaves exactly as Play. -/
def execGetlocP (s : State) : Result := entry s (commandFrame playRule)

/-- GETTN (R174). -/
def execGetTN (s : State) : Result := entry s (commandFrame getTNRule)

/-- GETTD (R175). -/
def execGetTD (s : State) : Result := entry s (commandFrame getTDRule)

/-- SEEKL (R176). -/
def execSeekL (s : State) : Result := entry s (commandFrame seekLRule)

/-- TEST (R177). -/
def execTest (s : State) : Result := entry s (commandFrame testRule)

/-- GETID (R178). -/
def execGetID (s : State) : Result := entry s (commandFrame getIDRule)

/-- READS (R179): behaves exactly as ReadN. -/
def execReadS (s : State) : Result := entry s (commandFrame readRule)

/-- CMD_ERROR (R180): any unassigned opcode. -/
def execCmdError (s : State) : Result := entry s (commandFrame pushCommandError)

/-- WR_COMMAND (R107): `execute_command(value)`, dispatched on the whole byte by the table of R145. -/
def execWrCommand (value : Byte) (s : State) : Result :=
  if value = 0x01 then execGetstat s
  else if value = 0x02 then execSetloc s
  else if value = 0x03 then execPlay s
  else if value = 0x06 then execReadN s
  else if value = 0x07 then execMotorOn s
  else if value = 0x08 then execStop s
  else if value = 0x09 then execPause s
  else if value = 0x0A then execInit s
  else if value = 0x0B then execMute s
  else if value = 0x0C then execDemute s
  else if value = 0x0D then execSetfilter s
  else if value = 0x0E then execSetmode s
  else if value = 0x0F then execGetparam s
  else if value = 0x11 then execGetlocP s
  else if value = 0x13 then execGetTN s
  else if value = 0x14 then execGetTD s
  else if value = 0x15 then execSeekL s
  else if value = 0x19 then execTest s
  else if value = 0x1A then execGetID s
  else if value = 0x1B then execReadS s
  else execCmdError s

end Sys2Proof.Machine
end

