-- ==== Sys2Proof/Machine/Registers.lean ====
section
/-! DEFINITION. The register file: one meaning per cell row (spec/40_register_file.md R101 to R118), except WR_COMMAND,
which stands with the commands. Each runs in the frame of R100. The byte a read returns goes to the output trace. -/

namespace Sys2Proof.Machine

/-- RD_STATUS (R101): the status byte; no side effect. -/
def execRdStatus (s : State) : Result := entry s fun s => s.emit (.regByte (statusByte s))

/-- RD_RESPONSE (R102): pop the front of `resp_fifo`; with it empty the byte is a draw and nothing of the block changes
(U8; log 4). -/
def execRdResponse (s : State) : Result :=
  entry s fun s =>
    match s.respFifo with
    | v :: rest => { s with respFifo := rest }.emit (.regByte v)
    | [] => { s with draws := s.draws + 1 }.emit (.regByte (Config.freeByte s.draws))

/-- RD_DATA (R103): `read_byte()`. -/
def execRdData (s : State) : Result := entry s fun s => s.advanceCursor.emit (.regByte (readByteValue s))

/-- RD_INT_ENABLE (R104): all 8 bits of `int_enable`. -/
def execRdIntEnable (s : State) : Result := entry s fun s => s.emit (.regByte s.intEnable)

/-- RD_INT_FLAG (R105): the front code, not popped. -/
def execRdIntFlag (s : State) : Result := entry s fun s => s.emit (.regByte (intFlagByte s))

/-- WR_INDEX (R106). -/
def execWrIndex (value : Byte) (s : State) : Result := entry s fun s => { s with index := newIndex value }

/-- WR_SOUND_MAP (R108): accepted, no effect. -/
def execWrSoundMap (s : State) : Result := entry s id

/-- WR_VOL_1_2 (R109): accepted, no effect. -/
def execWrVol12 (s : State) : Result := entry s id

/-- WR_VOL_1_3 (R110): accepted, no effect. -/
def execWrVol13 (s : State) : Result := entry s id

/-- WR_PARAM (R111): push a parameter; a push to a full FIFO faults. -/
def execWrParam (value : Byte) (s : State) : Result :=
  entry s fun s =>
    if s.paramFifo.length < Config.fifoDepth then { s with paramFifo := s.paramFifo ++ [value] }
    else s.raiseFault .paramFifoOverflow

/-- WR_INT_ENABLE (R112). -/
def execWrIntEnable (value : Byte) (s : State) : Result := entry s fun s => { s with intEnable := value }

/-- WR_VOL_2_2 (R113): accepted, no effect. -/
def execWrVol22 (s : State) : Result := entry s id

/-- WR_VOL_2_3 (R114): accepted, no effect. -/
def execWrVol23 (s : State) : Result := entry s id

/-- WR_REQUEST (R115): exchange the buffers if the data buffer is drained, or clear it. -/
def execWrRequest (value : Byte) (s : State) : Result :=
  entry s fun s =>
    if wantData value then
      if dataFifoNotEmpty s then s
      else { s with dataBuf := s.readBuf, readBuf := s.dataBuf, dataBufferIndex := 0, dataLoaded := true }
    else { s with dataLoaded := false, dataBufferIndex := 0 }

/-- WR_INT_ACK (R116): pop one code; with bit 6, also clear the parameters. -/
def execWrIntAck (value : Byte) (s : State) : Result :=
  entry s fun s => if alsoClearParams value then { s.popIrq with paramFifo := [] } else s.popIrq

/-- WR_VOL_APPLY_2 (R117): accepted, no effect. -/
def execWrVolApply2 (s : State) : Result := entry s id

/-- WR_VOL_APPLY_3 (R118): accepted, no effect. -/
def execWrVolApply3 (s : State) : Result := entry s id

end Sys2Proof.Machine
end

