-- ==== Sys2Proof/Machine/Dispatch.lean ====
section
/-! DEFINITION. One arm per constructor of `Instr`: the meaning it calls. -/

namespace Sys2Proof.Machine

def exec (i : Instr) (s : State) : Host.Outcome State Fault Refusal :=
  match i with
  -- register reads (spec/40_register_file.md, section 2)
  | .rdStatus _ => Sys2Proof.Machine.execRdStatus s
  | .rdResponse _ => Sys2Proof.Machine.execRdResponse s
  | .rdData _ => Sys2Proof.Machine.execRdData s
  | .rdIntEnable _ => Sys2Proof.Machine.execRdIntEnable s
  | .rdIntFlag _ => Sys2Proof.Machine.execRdIntFlag s
  -- register writes (spec/40_register_file.md, section 3)
  | .wrIndex _ value => Sys2Proof.Machine.execWrIndex value s
  | .wrCommand value => Sys2Proof.Machine.execWrCommand value s
  | .wrSoundMap _ => Sys2Proof.Machine.execWrSoundMap s
  | .wrVol12 _ => Sys2Proof.Machine.execWrVol12 s
  | .wrVol13 _ => Sys2Proof.Machine.execWrVol13 s
  | .wrParam value => Sys2Proof.Machine.execWrParam value s
  | .wrIntEnable value => Sys2Proof.Machine.execWrIntEnable value s
  | .wrVol22 _ => Sys2Proof.Machine.execWrVol22 s
  | .wrVol23 _ => Sys2Proof.Machine.execWrVol23 s
  | .wrRequest value => Sys2Proof.Machine.execWrRequest value s
  | .wrIntAck value => Sys2Proof.Machine.execWrIntAck value s
  | .wrVolApply2 _ => Sys2Proof.Machine.execWrVolApply2 s
  | .wrVolApply3 _ => Sys2Proof.Machine.execWrVolApply3 s
  -- commands (spec/42_commands.md)
  | .getstat => Sys2Proof.Machine.execGetstat s
  | .setloc => Sys2Proof.Machine.execSetloc s
  | .play => Sys2Proof.Machine.execPlay s
  | .readN => Sys2Proof.Machine.execReadN s
  | .motorOn => Sys2Proof.Machine.execMotorOn s
  | .stop => Sys2Proof.Machine.execStop s
  | .pause => Sys2Proof.Machine.execPause s
  | .init => Sys2Proof.Machine.execInit s
  | .mute => Sys2Proof.Machine.execMute s
  | .demute => Sys2Proof.Machine.execDemute s
  | .setfilter => Sys2Proof.Machine.execSetfilter s
  | .setmode => Sys2Proof.Machine.execSetmode s
  | .getparam => Sys2Proof.Machine.execGetparam s
  | .getlocP => Sys2Proof.Machine.execGetlocP s
  | .getTN => Sys2Proof.Machine.execGetTN s
  | .getTD => Sys2Proof.Machine.execGetTD s
  | .seekL => Sys2Proof.Machine.execSeekL s
  | .test => Sys2Proof.Machine.execTest s
  | .getID => Sys2Proof.Machine.execGetID s
  | .readS => Sys2Proof.Machine.execReadS s
  | .cmdError _ => Sys2Proof.Machine.execCmdError s

end Sys2Proof.Machine
end

