-- ==== Sys2Proof/WellFormed.lean ====
section
/-! DEFINITION. Which instructions a word of spec/30_encoding.md can stand for. Three rows restrict a field: the two
reads of slot 3 fix bit 0 of the index (R82), and CMD_ERROR takes only an unassigned opcode (R88). -/

namespace Sys2Proof

/-- The 20 assigned opcodes, in the order of R88. -/
def assignedOpcodes : List Byte :=
  [0x01, 0x02, 0x03, 0x06, 0x07, 0x08, 0x09, 0x0A, 0x0B, 0x0C, 0x0D, 0x0E, 0x0F, 0x11, 0x13, 0x14, 0x15, 0x19, 0x1A, 0x1B]

/-- Is the opcode byte assigned to a command (R88)? -/
def isAssigned (op : Byte) : Bool := assignedOpcodes.contains op

/-- The check on one instruction. -/
def Instr.wf : Instr → Bool
  | .rdIntEnable index => !index.getLsbD 0
  | .rdIntFlag index => index.getLsbD 0
  | .cmdError op => !isAssigned op
  | .rdStatus _ | .rdResponse _ | .rdData _ | .wrIndex _ _ | .wrCommand _ | .wrSoundMap _ | .wrVol12 _ | .wrVol13 _
  | .wrParam _ | .wrIntEnable _ | .wrVol22 _ | .wrVol23 _ | .wrRequest _ | .wrIntAck _ | .wrVolApply2 _ | .wrVolApply3 _
  | .getstat | .setloc | .play | .readN | .motorOn | .stop | .pause | .init | .mute | .demute | .setfilter | .setmode
  | .getparam | .getlocP | .getTN | .getTD | .seekL | .test | .getID | .readS => true

/-- Is the instruction a command of spec/42_commands.md, rather than a register access? -/
def Instr.isCommand : Instr → Bool
  | .rdStatus _ | .rdResponse _ | .rdData _ | .rdIntEnable _ | .rdIntFlag _ | .wrIndex _ _ | .wrCommand _ | .wrSoundMap _
  | .wrVol12 _ | .wrVol13 _ | .wrParam _ | .wrIntEnable _ | .wrVol22 _ | .wrVol23 _ | .wrRequest _ | .wrIntAck _
  | .wrVolApply2 _ | .wrVolApply3 _ => false
  | .getstat | .setloc | .play | .readN | .motorOn | .stop | .pause | .init | .mute | .demute | .setfilter | .setmode
  | .getparam | .getlocP | .getTN | .getTD | .seekL | .test | .getID | .readS | .cmdError _ => true

end Sys2Proof
end

