-- ==== Sys2Proof/Decode.lean ====
section
/-! DEFINITION. Decoding and encoding (spec/30_encoding.md), and the machine-readable rows of spec/opcode_table.json.

There are two levels of encoding. A register access is a key byte (the 5-bit key of R81 in bits 4:0, bits 7:5 zero)
followed, for a write, by the byte written (log 22). A command is one opcode byte (R85). `decode` is total on any bytes:
what it does not read it rejects by name. -/

namespace Sys2Proof

/-- The two formats of spec/opcode_table.json. -/
inductive Format where
  /-- A register access: key byte, then the written byte for a write. -/
  | mmio
  /-- A command: one opcode byte. -/
  | cmd
  deriving DecidableEq, Repr

/-- Why bytes stand for no instruction. -/
inductive Reject where
  /-- There is no first byte. -/
  | noBytes
  /-- A key byte has one of bits 7:5 set: the key has 5 bits (R81). -/
  | keyTooWide
  /-- A write's key byte is followed by no written byte (R84). -/
  | noValueByte
  deriving DecidableEq, Repr

/-- The key of an access (R81). -/
def keyOf (dir : Dir) (slot : Slot) (index : Index) : Key :=
  (if dir = .write then 1#1 else 0#1) ++ slot ++ index

/-- The read map (R82). -/
def decodeRead (slot : Slot) (index : Index) : Instr :=
  if slot = 0 then .rdStatus index
  else if slot = 1 then .rdResponse index
  else if slot = 2 then .rdData index
  else if index.getLsbD 0 then .rdIntFlag index
  else .rdIntEnable index

/-- The write map (R83). -/
def decodeWrite (slot : Slot) (index : Index) (value : Byte) : Instr :=
  if slot = 0 then .wrIndex index value
  else if slot = 1 then
    if index = 0 then .wrCommand value
    else if index = 1 then .wrSoundMap value
    else if index = 2 then .wrVol12 value
    else .wrVol13 value
  else if slot = 2 then
    if index = 0 then .wrParam value
    else if index = 1 then .wrIntEnable value
    else if index = 2 then .wrVol22 value
    else .wrVol23 value
  else
    if index = 0 then .wrRequest value
    else if index = 1 then .wrIntAck value
    else if index = 2 then .wrVolApply2 value
    else .wrVolApply3 value

/-- The instruction of one of the 32 cells (R80, R119); a read ignores `value`. -/
def decodeKey (key : Key) (value : Byte) : Instr :=
  if key.getLsbD 4 then decodeWrite (key.extractLsb' 2 2) (key.extractLsb' 0 2) value
  else decodeRead (key.extractLsb' 2 2) (key.extractLsb' 0 2)

/-- The opcode map (R85, R88; spec/41_command_interpreter.md R145): the whole byte selects the command. -/
def decodeCommand (op : Byte) : Instr :=
  if op = 0x01 then .getstat
  else if op = 0x02 then .setloc
  else if op = 0x03 then .play
  else if op = 0x06 then .readN
  else if op = 0x07 then .motorOn
  else if op = 0x08 then .stop
  else if op = 0x09 then .pause
  else if op = 0x0A then .init
  else if op = 0x0B then .mute
  else if op = 0x0C then .demute
  else if op = 0x0D then .setfilter
  else if op = 0x0E then .setmode
  else if op = 0x0F then .getparam
  else if op = 0x11 then .getlocP
  else if op = 0x13 then .getTN
  else if op = 0x14 then .getTD
  else if op = 0x15 then .seekL
  else if op = 0x19 then .test
  else if op = 0x1A then .getID
  else if op = 0x1B then .readS
  else .cmdError op

/-- Read one instruction from the front of the bytes; the rest of the bytes comes back with it. -/
def decode : Format → List Byte → Except Reject (Instr × List Byte)
  | _, [] => .error .noBytes
  | .cmd, op :: rest => .ok (decodeCommand op, rest)
  | .mmio, k :: rest =>
    if 32 ≤ k.toNat then .error .keyTooWide
    else if k.getLsbD 4 then
      match rest with
      | [] => .error .noValueByte
      | value :: rest' => .ok (decodeKey (k.setWidth 5) value, rest')
    else .ok (decodeKey (k.setWidth 5) 0, rest)

/-- A read access's bytes. -/
def readBytes (slot : Slot) (index : Index) : Format × List Byte :=
  (.mmio, [(keyOf .read slot index).setWidth 8])

/-- A write access's bytes. -/
def writeBytes (slot : Slot) (index : Index) (value : Byte) : Format × List Byte :=
  (.mmio, [(keyOf .write slot index).setWidth 8, value])

/-- The bytes of an instruction (R82, R83, R145). -/
def encode : Instr → Format × List Byte
  | .rdStatus index => readBytes 0 index
  | .rdResponse index => readBytes 1 index
  | .rdData index => readBytes 2 index
  | .rdIntEnable index => readBytes 3 index
  | .rdIntFlag index => readBytes 3 index
  | .wrIndex index value => writeBytes 0 index value
  | .wrCommand value => writeBytes 1 0 value
  | .wrSoundMap value => writeBytes 1 1 value
  | .wrVol12 value => writeBytes 1 2 value
  | .wrVol13 value => writeBytes 1 3 value
  | .wrParam value => writeBytes 2 0 value
  | .wrIntEnable value => writeBytes 2 1 value
  | .wrVol22 value => writeBytes 2 2 value
  | .wrVol23 value => writeBytes 2 3 value
  | .wrRequest value => writeBytes 3 0 value
  | .wrIntAck value => writeBytes 3 1 value
  | .wrVolApply2 value => writeBytes 3 2 value
  | .wrVolApply3 value => writeBytes 3 3 value
  | .getstat => (.cmd, [0x01])
  | .setloc => (.cmd, [0x02])
  | .play => (.cmd, [0x03])
  | .readN => (.cmd, [0x06])
  | .motorOn => (.cmd, [0x07])
  | .stop => (.cmd, [0x08])
  | .pause => (.cmd, [0x09])
  | .init => (.cmd, [0x0A])
  | .mute => (.cmd, [0x0B])
  | .demute => (.cmd, [0x0C])
  | .setfilter => (.cmd, [0x0D])
  | .setmode => (.cmd, [0x0E])
  | .getparam => (.cmd, [0x0F])
  | .getlocP => (.cmd, [0x11])
  | .getTN => (.cmd, [0x13])
  | .getTD => (.cmd, [0x14])
  | .seekL => (.cmd, [0x15])
  | .test => (.cmd, [0x19])
  | .getID => (.cmd, [0x1A])
  | .readS => (.cmd, [0x1B])
  | .cmdError op => (.cmd, [op])

/-- Which level of encoding a bare word of the opcode table is read at. The table numbers a register access by its
5-bit key and a command by its opcode byte, so a whole byte below 32 can stand in a row of each format. The most
specific row is taken: an assigned opcode fixes all 8 bits; then a key, whose row fixes at most 5; then the default
row (log 13). Fewer than 8 bits can only be a key, more than 8 only a key with its written byte. -/
def tableFormat (nbits w : Nat) : Format :=
  if nbits = 8 ∧ (isAssigned (BitVec.ofNat 8 w) ∨ 32 ≤ w) then .cmd else .mmio

/-- The instruction the decoder reads from a word of the opcode table: the first byte in bits 7:0, the second (a
written byte) in bits 15:8, bits above `nbits` zero. -/
def decodeTableWord (nbits w : Nat) : Option Instr :=
  if 2 ^ 16 ≤ w ∨ (nbits = 8 ∧ 2 ^ 8 ≤ w) then none
  else
    match decode (tableFormat nbits w) [BitVec.ofNat 8 w, BitVec.ofNat 8 (w / 256)] with
    | .ok (i, rest) => if rest.all (· == 0) then some i else none
    | .error _ => none

/-- The mnemonic of an instruction's row of spec/opcode_table.json. -/
def Instr.mnemonic : Instr → String
  | .rdStatus _ => "RD_STATUS"
  | .rdResponse _ => "RD_RESPONSE"
  | .rdData _ => "RD_DATA"
  | .rdIntEnable _ => "RD_INT_ENABLE"
  | .rdIntFlag _ => "RD_INT_FLAG"
  | .wrIndex _ _ => "WR_INDEX"
  | .wrCommand _ => "WR_COMMAND"
  | .wrSoundMap _ => "WR_SOUND_MAP"
  | .wrVol12 _ => "WR_VOL_1_2"
  | .wrVol13 _ => "WR_VOL_1_3"
  | .wrParam _ => "WR_PARAM"
  | .wrIntEnable _ => "WR_INT_ENABLE"
  | .wrVol22 _ => "WR_VOL_2_2"
  | .wrVol23 _ => "WR_VOL_2_3"
  | .wrRequest _ => "WR_REQUEST"
  | .wrIntAck _ => "WR_INT_ACK"
  | .wrVolApply2 _ => "WR_VOL_APPLY_2"
  | .wrVolApply3 _ => "WR_VOL_APPLY_3"
  | .getstat => "GETSTAT"
  | .setloc => "SETLOC"
  | .play => "PLAY"
  | .readN => "READN"
  | .motorOn => "MOTORON"
  | .stop => "STOP"
  | .pause => "PAUSE"
  | .init => "INIT"
  | .mute => "MUTE"
  | .demute => "DEMUTE"
  | .setfilter => "SETFILTER"
  | .setmode => "SETMODE"
  | .getparam => "GETPARAM"
  | .getlocP => "GETLOCP"
  | .getTN => "GETTN"
  | .getTD => "GETTD"
  | .seekL => "SEEKL"
  | .test => "TEST"
  | .getID => "GETID"
  | .readS => "READS"
  | .cmdError _ => "CMD_ERROR"

/-- One MMIO row of spec/opcode_table.json: an access is in the row when `key &&& mask = pattern` (R81). -/
structure CellRow where
  pattern : Key
  mask : Key
  mnemonic : String
  deriving DecidableEq, Repr

/-- Is the key in the row (R81)? -/
def CellRow.covers (row : CellRow) (key : Key) : Bool := key &&& row.mask == row.pattern

/-- The 18 MMIO rows, as the tables of R82 and R83 give them. -/
def cellRows : List CellRow :=
  [⟨0b00000, 0b11100, "RD_STATUS"⟩, ⟨0b00100, 0b11100, "RD_RESPONSE"⟩, ⟨0b01000, 0b11100, "RD_DATA"⟩,
   ⟨0b01100, 0b11101, "RD_INT_ENABLE"⟩, ⟨0b01101, 0b11101, "RD_INT_FLAG"⟩]
  ++ [⟨0b10000, 0b11100, "WR_INDEX"⟩, ⟨0b10100, 0b11111, "WR_COMMAND"⟩, ⟨0b10101, 0b11111, "WR_SOUND_MAP"⟩,
   ⟨0b10110, 0b11111, "WR_VOL_1_2"⟩, ⟨0b10111, 0b11111, "WR_VOL_1_3"⟩, ⟨0b11000, 0b11111, "WR_PARAM"⟩,
   ⟨0b11001, 0b11111, "WR_INT_ENABLE"⟩, ⟨0b11010, 0b11111, "WR_VOL_2_2"⟩, ⟨0b11011, 0b11111, "WR_VOL_2_3"⟩,
   ⟨0b11100, 0b11111, "WR_REQUEST"⟩, ⟨0b11101, 0b11111, "WR_INT_ACK"⟩, ⟨0b11110, 0b11111, "WR_VOL_APPLY_2"⟩,
   ⟨0b11111, 0b11111, "WR_VOL_APPLY_3"⟩]

end Sys2Proof
end

