-- ==== Sys2Proof/Machine/HostInterface.lean ====
section
/-! DEFINITION. The transactions: disc insertion (spec/44_host_interface.md R234), the memory bus's window decode
(spec/20_memory.md R61, R63), what entry point a transaction calls, and how an instruction is presented to the block. -/

namespace Sys2Proof.Machine

/-- `insert_disk_file(image)` (R234; D31): it replaces the disc and closes the shell, nothing else. -/
def execInsert (image : DiscImage) (s : State) : Result :=
  entry s fun s => { s with disc := image, stat := setStatField s.stat .shellOpen false }

/-- The slot of a physical address inside the window (spec/20_memory.md R61). -/
def slotOf (address : Address) : Option Slot :=
  if Config.mmioBase ≤ address.toNat ∧ address.toNat < Config.mmioBase + Config.mmioSize then
    some (address.extractLsb' 0 2)
  else none

/-- The address of a slot (R61). -/
def addressOf (slot : Slot) : Address := BitVec.ofNat 32 (Config.mmioBase + slot.toNat)

/-- What a transaction calls. -/
inductive EntryPoint where
  /-- A register access, decoded to its cell. -/
  | access (i : Instr)
  /-- `step()`. -/
  | step
  /-- `read_word()`. -/
  | readWord
  /-- `insert_disk_file(image)`. -/
  | insert (image : DiscImage)
  /-- No transition of this block. -/
  | none (r : Refusal)
  deriving DecidableEq, Repr

/-- Decode a transaction in the bank in force (spec/30_encoding.md R80). -/
def entryPointOf (index : Index) : Transaction → EntryPoint
  | .guestRead address =>
    match slotOf address with
    | some slot => .access (decodeKey (keyOf .read slot index) 0)
    | .none => .none .outsideWindow
  | .guestWrite address value =>
    match slotOf address with
    | some slot => .access (decodeKey (keyOf .write slot index) value)
    | .none => .none .outsideWindow
  | .guestWide _ => .none .wideAccess
  | .hostStep => .step
  | .hostReadWord => .readWord
  | .hostInsert image => .insert image

/-- Present the access with these slot, index and written byte as the next transaction: its bank is selected. -/
def State.presentAccess (s : State) (key : Key) (value : Byte) : State :=
  { s with
    index := key.extractLsb' 0 2
    pending :=
      (if key.getLsbD 4 then .guestWrite (addressOf (key.extractLsb' 2 2)) value
       else .guestRead (addressOf (key.extractLsb' 2 2))) :: s.pending }

/-- Present an instruction as the next transaction (log 14). A register access is presented as itself. A command is
presented as the write of its opcode to cell (write, 1, 0), with as many zero parameters in `param_fifo` as it
consumes: a command's operands are fetched there (spec/30_encoding.md R86). -/
def State.present (s : State) (i : Instr) : State :=
  match encode i with
  | (.mmio, k :: rest) => s.presentAccess (k.setWidth 5) (rest.headD 0)
  | (.cmd, op :: _) =>
    { s with paramFifo := List.replicate (operandCount i) 0 }.presentAccess (keyOf .write 1 0) op
  | (_, []) => s

end Sys2Proof.Machine
end

