-- ==== Sys2Proof/Machine/SectorReader.lean ====
section
/-! DEFINITION. The host tick `step()` with the cadence counter and the sector fetch (spec/43_sector_reader.md R200 to
R213), and the DMA word read (R216). -/

namespace Sys2Proof.Machine

/-- Are the first 12 bytes the sync magic (R208)? The answer only selects log lines (R209, R210), and the block does
not log (spec/60_exceptions.md R262), so no rule below reads it. -/
def syncOk (bytes : SectorBytes) : Bool := bytes.toList.take 12 == Config.syncMagic

/-- Data ready (R210, R211): only a Data sector fetched while Reading pushes INT1. -/
def State.dataReady (s : State) (kind : SectorKind) : State :=
  if isReading s.stat ∧ kind = .data then s.pushStat .secondInt1 else s

/-- `fetch_sector()` (R205 to R211): the LBA always advances; an Invalid sector does nothing more; any other is staged
in `read_buf`. -/
def State.fetchSector (s : State) : State :=
  let sector := discRead s.disc s.readSector
  let t := { s with readSector := s.readSector + 1 }
  match sector.kind with
  | .invalid => t
  | .data => { t with readBuf := sector.bytes }.dataReady .data
  | .audio => { t with readBuf := sector.bytes }.dataReady .audio

/-- R201 and R202: the busy bit clears, then the front code raises if it is enabled. -/
def State.raiseStep (s : State) : State :=
  let t := { s with transmitBusy := false }
  if raisePending t then t.emit (.raised .cdrom) else t

/-- R203 and R204: in Reading or Playing the counter falls by 1; at 0 it is reloaded and a sector is fetched. -/
def State.cadenceStep (s : State) : State :=
  if isReading s.stat || isPlaying s.stat then
    let count := s.stepsUntilReadSect - 1
    if count = 0 then { s with stepsUntilReadSect := Config.readSectorDelaySteps }.fetchSector
    else { s with stepsUntilReadSect := count }
  else s

/-- `step()` (R200). -/
def execStep (s : State) : Result := entry s fun s => s.raiseStep.cadenceStep

/-- Four bytes as a little-endian word (R216; spec/20_memory.md R65). -/
def wordOfBytes (b0 b1 b2 b3 : Byte) : Word :=
  b0.setWidth 32 ||| (b1.setWidth 32 <<< 8) ||| (b2.setWidth 32 <<< 16) ||| (b3.setWidth 32 <<< 24)

/-- `read_word()` (R216): four `read_byte()` in one transition. -/
def execReadWord (s : State) : Result :=
  entry s fun s =>
    let s1 := s.advanceCursor
    let s2 := s1.advanceCursor
    let s3 := s2.advanceCursor
    s3.advanceCursor.emit
      (.dmaWord (wordOfBytes (readByteValue s) (readByteValue s1) (readByteValue s2) (readByteValue s3)))

end Sys2Proof.Machine
end

