-- ==== Sys2Proof/Machine/Step.lean ====
section
/-! DEFINITION. One step: the next transaction of the environment is taken and its entry point runs as one atomic
transition (spec/00_scope.md R6; spec/20_memory.md R68, R69). With no transaction pending the block does not move: it
has no action of its own (log 17). -/

namespace Sys2Proof.Machine

/-- Run an entry point. -/
def runEntryPoint (e : EntryPoint) (s : State) : Result :=
  match e with
  | .access i => exec i s
  | .step => execStep s
  | .readWord => execReadWord s
  | .insert image => execInsert image s
  | .none r => .refused r

/-- One step of the machine. -/
def step (s : State) : Host.Outcome State Fault Refusal :=
  match s.faulted with
  | some reason => .fault reason
  | none =>
    match s.pending with
    | [] => .next s
    | t :: rest => runEntryPoint (entryPointOf s.index t) { s with pending := rest }

/-- `s` with the instruction of a table word presented as the next transaction. A word that stands for no instruction
presents nothing. -/
def State.withFetchWord (s : State) (nbits w : Nat) : State :=
  match decodeTableWord nbits w with
  | some i => s.present i
  | none => s

end Sys2Proof.Machine
end

