-- ==== Sys2Proof/Safety.lean ====
section
/-! DEFINITION. What counts as a safe run, in the terms claims use: no fault has been recorded (spec/60_exceptions.md
R258), and the invariants of spec/10_state.md R51 with the stuck bits of spec/93_implementation_defined.md hold. -/

namespace Sys2Proof.Machine

/-- No fault is recorded; a claim about a program must assume it (R258). -/
def State.live (s : State) : Prop := s.faulted = none

/-- At most one of reading, seeking and playing is set (spec/10_state.md R30, R51). -/
def driveLegal (stat : Byte) : Prop :=
  ¬(statField stat .reading = true ∧ statField stat .seeking = true)
    ∧ ¬(statField stat .reading = true ∧ statField stat .playing = true)
    ∧ ¬(statField stat .seeking = true ∧ statField stat .playing = true)

/-- The invariants every entry point keeps (R51; U17, U18). The derived status bits (R51 point 3) are functions of the
state here, so they need no clause. -/
structure Inv (s : State) : Prop where
  /-- R51 point 1. -/
  params : s.paramFifo.length ≤ Config.fifoDepth
  /-- R51 point 1. -/
  responses : s.respFifo.length ≤ Config.fifoDepth
  /-- R51 point 1. -/
  irqs : s.irqFifo.length ≤ Config.fifoDepth
  /-- R51 point 2. -/
  drive : driveLegal s.stat
  /-- R51 point 4, the lower bound. -/
  counterLow : 1 ≤ s.stepsUntilReadSect
  /-- R51 point 4, the upper bound. -/
  counterHigh : s.stepsUntilReadSect ≤ Config.readSectorDelaySteps
  /-- R51 point 5, for the larger of the two sector sizes. -/
  cursor : s.dataBufferIndex ≤ Config.sectorSizeWhole
  /-- A cleared buffer has its cursor at 0 (spec/40_register_file.md R115). -/
  clearedCursor : s.dataLoaded = false → s.dataBufferIndex = 0
  /-- Stat bits 0, 2 and 3 are stuck at 0 (R27; U18). -/
  stuckStat : statField s.stat .error = false ∧ statField s.stat .seekError = false ∧ statField s.stat .idError = false
  /-- Status bit 2 is stuck at 0 (R25; U17). -/
  stuckAdpcm : s.adpcmFifoEmpty = false
  /-- Without a fault, mode bit 4 is 0 (R31; spec/42_commands.md R172). -/
  modeBit4 : s.live → s.mode.getLsbD 4 = false
  /-- The disc is in canonical form. -/
  discWf : s.disc.wf = true
  /-- So is every image the environment will insert. -/
  pendingWf : ∀ image, .hostInsert image ∈ s.pending → image.wf = true

/-- How many raises an output trace holds (spec/44_host_interface.md R236, R237). -/
def raiseCount (trace : List Output) : Nat := trace.countP fun o => o == .raised .cdrom

/-- The state a command that runs to its end leaves, besides what its own rule writes: the codes and bytes it pushed
into the cleared FIFOs, and the frame of spec/41_command_interpreter.md R140. -/
def State.commandDone (s : State) (codes : List IrqCode) (bytes : List Byte) : State :=
  { s with
    irqFifo := codes
    respFifo := bytes
    paramFifo := []
    transmitBusy := true
    adpcmFifoEmpty := false }

/-- The state a command leaves whose rule faults for want of a parameter: it has consumed those there were. -/
def State.commandStarved (s : State) : State :=
  { s with irqFifo := [], respFifo := [], paramFifo := [], faulted := some .paramFifoEmpty }

/-- The decimal value of a byte's two nibbles, in the words of spec/41_command_interpreter.md R149. -/
def nibbles (b : Byte) : Int := 10 * (b.toNat / 16) + b.toNat % 16

/-- How many bytes of the loaded sector are still to be delivered under the current mode (spec/10_state.md R32, R39;
spec/43_sector_reader.md R217). -/
def bytesLeft (s : State) : Nat :=
  if s.dataLoaded then (if s.mode.getLsbD 5 then 2340 else 2048) - s.dataBufferIndex else 0

/-- The byte of `data_buf` that the `k`-th next read of slot 2 delivers, 0 once the buffer is drained (R214, R215). -/
def upcomingByte (s : State) (k : Nat) : Byte :=
  if k < bytesLeft s then s.dataBuf.toList.getD ((if s.mode.getLsbD 5 then 12 else 24) + s.dataBufferIndex + k) 0 else 0

/-- Is the front code of `irq_fifo` enabled, in the words of spec/43_sector_reader.md R202? -/
def frontEnabled (s : State) : Bool :=
  match s.irqFifo.head? with
  | some code => (code.toByte &&& s.intEnable &&& 0x07) != 0
  | none => false

/-- What `step()` adds to the output trace (R202). -/
def stepOutput (s : State) : List Output := if frontEnabled s then [.raised .cdrom] else []

/-- The fault, if any, that a command meets in a state, by the causes of spec/60_exceptions.md R259. -/
def commandFault (i : Instr) (params : List Byte) : Option Fault :=
  match i with
  | .setloc => if params.length < 3 then some .paramFifoEmpty else none
  | .setfilter => if params.length < 2 then some .paramFifoEmpty else none
  | .getTD | .test => if params.length < 1 then some .paramFifoEmpty else none
  | .setmode =>
    match params with
    | [] => some .paramFifoEmpty
    | m :: _ => if m.getLsbD 4 then some .setmodeBit4 else none
  | .play | .getlocP => if params = [] then none else some .playWithParams
  | _ => none

/-- The fault, if any, that an instruction meets in a state (R259). -/
def faultCause (i : Instr) (params : List Byte) : Option Fault :=
  match i with
  | .wrParam _ => if params.length < 16 then none else some .paramFifoOverflow
  | .wrCommand op => commandFault (decodeCommand op) params
  | _ => commandFault i params

/-- The drive state a command leaves the drive in, where it sets one (the table of spec/43_sector_reader.md R213). -/
def driveAfter : Instr → Option DriveState
  | .play | .getlocP => some .playing
  | .readN | .readS => some .reading
  | .seekL => some .seeking
  | .stop | .pause | .init => some .stopped
  | _ => none

/-- `n` calls of `step()` in a row (spec/44_host_interface.md R241). -/
def runSteps : Nat → State → Result
  | 0, s => .next s
  | n + 1, s =>
    match execStep s with
    | .next t => runSteps n t
    | .fault r => .fault r
    | .refused r => .refused r

/-- `n` reads of slot 2 in a row (spec/43_sector_reader.md R217). -/
def runDataReads : Nat → State → Result
  | 0, s => .next s
  | n + 1, s =>
    match execRdData s with
    | .next t => runDataReads n t
    | .fault r => .fault r
    | .refused r => .refused r

end Sys2Proof.Machine
end

