-- ==== Sys2Proof/Certificates/Slice0/Obligations.lean ====
section
/-! DEFINITION. The statements for the provers, one per family of rules of spec/. Where a statement rests on a decision
of spec/92_eei_decisions.md (D n) or on a choice of the model (log n), its docstring says so. A state that an
instruction leaves is given whole, as a record update of the state before it, so that the statement is the
instruction's result and its frame at once: every field not named keeps its value. The byte or word that a read returns,
and a raise, stand at the end of the output trace (log 3). -/

open Sys2Proof Sys2Proof.Machine

/-! ### Encoding -/

/-- Words written out from the encodings of spec/30_encoding.md R82, R83 and R85 decode to the instructions they stand
for, and bytes that are no word are rejected by name. The key is the spec's own notation (D27), and the two-byte layout
of a write is the model's (log 22). -/
def Obligations.SpecWordsDecode : Prop :=
  decode .mmio [0b00000000] = .ok (.rdStatus 0, [])
    ∧ decode .mmio [0b00000110] = .ok (.rdResponse 2, [])
    ∧ decode .mmio [0b00001111] = .ok (.rdIntFlag 3, [])
    ∧ decode .mmio [0b00010010, 0xFE] = .ok (.wrIndex 2 0xFE, [])
    ∧ decode .mmio [0b00010100, 0x1A] = .ok (.wrCommand 0x1A, [])
    ∧ decode .mmio [0b00011001, 0x07] = .ok (.wrIntEnable 0x07, [])
    ∧ decode .mmio [0b00011101, 0x47] = .ok (.wrIntAck 0x47, [])
    ∧ decode .cmd [0x01] = .ok (.getstat, [])
    ∧ decode .cmd [0x11] = .ok (.getlocP, [])
    ∧ decode .cmd [0x1B] = .ok (.readS, [])
    ∧ decode .cmd [0x1C] = .ok (.cmdError 0x1C, [])
    ∧ decode .mmio [0b00100000] = .error .keyTooWide
    ∧ decode .mmio [0b00011000] = .error .noValueByte
    ∧ decode .cmd [] = .error .noBytes

/-- Each of the 32 keys is in exactly one MMIO row of the opcode table (spec/30_encoding.md R81, decision D27), and the
decoder gives the instruction of that row and of no other. -/
def Obligations.DecodedCellIsTheOneRowThatMatches : Prop :=
  ∀ (key : Key) (value : Byte),
    (cellRows.filter fun row => row.covers key).length = 1
      ∧ ∀ row ∈ cellRows, (row.covers key = true ↔ (decodeKey key value).mnemonic = row.mnemonic)

/-- Decoding what the encoder writes gives the instruction back, whatever bytes follow it. -/
def Obligations.DecodeOfEncodeIsTheInstruction : Prop :=
  ∀ (i : Instr) (rest : List Byte),
    i.wf = true → decode (encode i).1 ((encode i).2 ++ rest) = .ok (i, rest)

/-- What decodes is well formed and its encoding is the bytes it was read from: a word has one meaning and no bit of it
is dropped. -/
def Obligations.EncodeOfDecodeIsTheBytes : Prop :=
  ∀ (format : Format) (bytes rest : List Byte) (i : Instr),
    decode format bytes = .ok (i, rest) →
      i.wf = true ∧ (encode i).1 = format ∧ (encode i).2 ++ rest = bytes

/-! ### The step -/

/-- spec/20_memory.md R61 with spec/30_encoding.md R80: an 8-bit guest access inside the window reaches the block at
slot `a[1:0]` and runs the instruction its bytes decode to in the bank in force; a write of cell (1, 0) runs the command
its byte decodes to. The byte layout of an access is the model's (log 22), and so is the refusal of an access outside
the window (log 12). -/
def Obligations.StepRunsTheDecodedAccess : Prop :=
  ∀ (s : State) (rest : List Transaction) (a : Address) (value : Byte), s.live →
    (0x1F801800 ≤ a.toNat ∧ a.toNat ≤ 0x1F801803 →
      (s.pending = .guestRead a :: rest → ∀ i,
          decode .mmio (readBytes (a.extractLsb' 0 2) s.index).2 = .ok (i, []) →
          step s = exec i { s with pending := rest })
        ∧ (s.pending = .guestWrite a value :: rest → ∀ i,
            decode .mmio (writeBytes (a.extractLsb' 0 2) s.index value).2 = .ok (i, []) →
            step s = exec i { s with pending := rest })
        ∧ (s.pending = .guestWrite a value :: rest → a.extractLsb' 0 2 = 1#2 → s.index = 0 → ∀ i,
            decode .cmd [value] = .ok (i, []) → step s = exec i { s with pending := rest }))
      ∧ (a.toNat < 0x1F801800 ∨ 0x1F801803 < a.toNat →
          (s.pending = .guestRead a :: rest → step s = .refused .outsideWindow)
            ∧ (s.pending = .guestWrite a value :: rest → step s = .refused .outsideWindow))

/-- The other transactions: each host call runs its entry point (spec/00_scope.md R6), a wide guest access is refused
(spec/20_memory.md R63, decision D22), and with nothing pending the block does not move (log 17). -/
def Obligations.StepRunsTheHostCalls : Prop :=
  ∀ (s : State) (rest : List Transaction), s.live →
    (s.pending = .hostStep :: rest → step s = execStep { s with pending := rest })
      ∧ (s.pending = .hostReadWord :: rest → step s = execReadWord { s with pending := rest })
      ∧ (∀ image, s.pending = .hostInsert image :: rest → step s = execInsert image { s with pending := rest })
      ∧ (∀ a, s.pending = .guestWide a :: rest → step s = .refused .wideAccess)
      ∧ (s.pending = [] → step s = .next s)

/-- spec/60_exceptions.md R258 (decision D21; log 8): once the model has faulted, no entry point has a transition. -/
def Obligations.FaultedModelHasNoTransition : Prop :=
  ∀ (s : State) (reason : Fault), s.faulted = some reason →
    step s = .fault reason ∧ (∀ i, exec i s = .fault reason) ∧ execStep s = .fault reason
      ∧ execReadWord s = .fault reason ∧ ∀ image, execInsert image s = .fault reason

/-! ### Reset -/

/-- The reset values of spec/10_state.md R50 (decisions D4, D5, D17 and D21, except `shell_open`; log 1), and the status
byte 0x18 they give. That 0x10 is shell_open is the bit order of D1 (log 11). -/
def Obligations.ResetLeavesTheListedValues : Prop :=
  let s := State.reset
  s.index = 0 ∧ s.adpcmFifoEmpty = false ∧ s.transmitBusy = false
    ∧ (∀ f, statField s.stat f = true ↔ f = .shellOpen)
    ∧ s.stat = 0x10 ∧ s.mode = 0x00 ∧ s.intEnable = 0x00
    ∧ s.paramFifo = [] ∧ s.respFifo = [] ∧ s.irqFifo = []
    ∧ (∀ k, k < 2352 → sectorByte s.dataBuf k = 0) ∧ s.dataLoaded = false ∧ s.dataBufferIndex = 0
    ∧ (∀ k, k < 2352 → sectorByte s.readBuf k = 0)
    ∧ s.seekSector = 0 ∧ s.readSector = 0 ∧ s.stepsUntilReadSect = Config.readSectorDelaySteps
    ∧ s.muted = false ∧ s.disc.isEmpty = true ∧ s.faulted = none ∧ statusByte s = 0x18

/-- The invariants hold right after reset, with the reset values of decision D4 (log 1). -/
def Obligations.ResetMeetsTheInvariants : Prop := Inv State.reset

/-! ### Register reads -/

/-- RD_STATUS (spec/40_register_file.md R101; spec/10_state.md R21, R23 with decisions D15 and D30): the byte returned,
bit by bit, and nothing else changes. -/
def Obligations.ReadStatusAssemblesTheStatusByte : Prop :=
  ∀ (s : State) (bank : Index), s.live →
    ∃ v : Byte,
      exec (.rdStatus bank) s = .next { s with trace := s.trace ++ [.regByte v] }
        ∧ v.extractLsb' 0 2 = s.index
        ∧ v.getLsbD 2 = s.adpcmFifoEmpty
        ∧ v.getLsbD 3 = decide (s.paramFifo = [])
        ∧ v.getLsbD 4 = decide (s.paramFifo.length < 16)
        ∧ v.getLsbD 5 = decide (s.respFifo ≠ [])
        ∧ v.getLsbD 6 = decide (0 < bytesLeft s)
        ∧ v.getLsbD 7 = s.transmitBusy

/-- RD_RESPONSE (R102): the front byte is returned and popped; with the FIFO empty some byte is returned and nothing of
the block changes (decision D12: a free value, log 4). -/
def Obligations.ReadResponsePopsTheFront : Prop :=
  ∀ (s : State) (bank : Index), s.live →
    (∀ v rest, s.respFifo = v :: rest →
        exec (.rdResponse bank) s = .next { s with respFifo := rest, trace := s.trace ++ [.regByte v] })
      ∧ (s.respFifo = [] →
          ∃ v, exec (.rdResponse bank) s =
            .next { s with draws := s.draws + 1, trace := s.trace ++ [.regByte v] })

/-- RD_DATA (R103; spec/43_sector_reader.md R214, R215; decisions D14, D30): while bytes remain, the next byte of the
sector at the offset of the current mode, and the cursor advances; then 0x00 and no change. -/
def Obligations.ReadDataServesTheNextByte : Prop :=
  ∀ (s : State) (bank : Index), s.live →
    (0 < bytesLeft s →
        exec (.rdData bank) s =
          .next { s with
            dataBufferIndex := s.dataBufferIndex + 1
            trace := s.trace ++ [.regByte (upcomingByte s 0)] })
      ∧ (bytesLeft s = 0 → exec (.rdData bank) s = .next { s with trace := s.trace ++ [.regByte 0x00] })

/-- RD_INT_FLAG (R105): the front code under 0xE0, not popped; 0xE0 with the FIFO empty. -/
def Obligations.ReadIntFlagShowsTheFrontCode : Prop :=
  ∀ (s : State) (bank : Index), s.live →
    (∀ code rest, s.irqFifo = code :: rest →
        exec (.rdIntFlag bank) s = .next { s with trace := s.trace ++ [.regByte (0xE0 ||| (code.toByte &&& 7))] })
      ∧ (s.irqFifo = [] → exec (.rdIntFlag bank) s = .next { s with trace := s.trace ++ [.regByte 0xE0] })

/-! ### Register writes -/

/-- WR_INDEX (R106): the index becomes the low 2 bits of the value, nothing else changes, whatever bank the write is
decoded in. -/
def Obligations.WriteIndexTakesTheLowTwoBits : Prop :=
  ∀ (s : State) (bank : Index) (value : Byte), s.live →
    exec (.wrIndex bank value) s = .next { s with index := BitVec.ofNat 2 (value.toNat % 4) }

/-- The seven audio cells accept any value and do nothing (R108 to R110, R113, R114, R117, R118). -/
def Obligations.AudioCellWritesDoNothing : Prop :=
  ∀ (s : State) (value : Byte), s.live →
    exec (.wrSoundMap value) s = .next s ∧ exec (.wrVol12 value) s = .next s ∧ exec (.wrVol13 value) s = .next s
      ∧ exec (.wrVol22 value) s = .next s ∧ exec (.wrVol23 value) s = .next s
      ∧ exec (.wrVolApply2 value) s = .next s ∧ exec (.wrVolApply3 value) s = .next s

/-- WR_PARAM (R111): the byte goes to the end of `param_fifo`; a 17th faults (decisions D10, D21; log 8)
and only records it. -/
def Obligations.WriteParamPushesOrFaults : Prop :=
  ∀ (s : State) (value : Byte), s.live →
    (s.paramFifo.length < 16 → exec (.wrParam value) s = .next { s with paramFifo := s.paramFifo ++ [value] })
      ∧ (16 ≤ s.paramFifo.length → exec (.wrParam value) s = .next { s with faulted := some .paramFifoOverflow })

/-- WR_INT_ENABLE and RD_INT_ENABLE (R112, R104, decision D29): all 8 bits are stored, and all 8 are returned. -/
def Obligations.IntEnableIsStoredAndReadWhole : Prop :=
  ∀ (s : State) (bank : Index) (value : Byte), s.live →
    exec (.wrIntEnable value) s = .next { s with intEnable := value }
      ∧ exec (.rdIntEnable bank) s = .next { s with trace := s.trace ++ [.regByte s.intEnable] }

/-- WR_REQUEST (R115, decisions D14, D15): with bit 7, a drained data buffer is exchanged with `read_buf` and its cursor
starts over, and one with bytes left is untouched; without bit 7 the buffer is cleared and its bytes kept. -/
def Obligations.WriteRequestExchangesOrClears : Prop :=
  ∀ (s : State) (value : Byte), s.live →
    (value.getLsbD 7 = true ∧ bytesLeft s = 0 →
        exec (.wrRequest value) s =
          .next { s with dataBuf := s.readBuf, readBuf := s.dataBuf, dataBufferIndex := 0, dataLoaded := true })
      ∧ (value.getLsbD 7 = true ∧ 0 < bytesLeft s → exec (.wrRequest value) s = .next s)
      ∧ (value.getLsbD 7 = false →
          exec (.wrRequest value) s = .next { s with dataLoaded := false, dataBufferIndex := 0 })

/-- WR_INT_ACK (R116, decision D13): one code is popped if there is one, whatever the low bits; bit 6 also clears the
parameters; the response bytes stay. -/
def Obligations.WriteIntAckPopsOneCode : Prop :=
  ∀ (s : State) (value : Byte), s.live →
    exec (.wrIntAck value) s =
      .next { s with
        irqFifo := s.irqFifo.drop 1
        paramFifo := if value.getLsbD 6 then [] else s.paramFifo }

/-- WR_COMMAND (R107; spec/41_command_interpreter.md R145): the whole opcode byte selects the command, and every other
byte selects the command error. -/
def Obligations.WriteCommandDispatchesOnTheOpcode : Prop :=
  ∀ s : State,
    exec (.wrCommand 0x01) s = exec .getstat s ∧ exec (.wrCommand 0x02) s = exec .setloc s
      ∧ exec (.wrCommand 0x03) s = exec .play s ∧ exec (.wrCommand 0x06) s = exec .readN s
      ∧ exec (.wrCommand 0x07) s = exec .motorOn s ∧ exec (.wrCommand 0x08) s = exec .stop s
      ∧ exec (.wrCommand 0x09) s = exec .pause s ∧ exec (.wrCommand 0x0A) s = exec .init s
      ∧ exec (.wrCommand 0x0B) s = exec .mute s ∧ exec (.wrCommand 0x0C) s = exec .demute s
      ∧ exec (.wrCommand 0x0D) s = exec .setfilter s ∧ exec (.wrCommand 0x0E) s = exec .setmode s
      ∧ exec (.wrCommand 0x0F) s = exec .getparam s ∧ exec (.wrCommand 0x11) s = exec .getlocP s
      ∧ exec (.wrCommand 0x13) s = exec .getTN s ∧ exec (.wrCommand 0x14) s = exec .getTD s
      ∧ exec (.wrCommand 0x15) s = exec .seekL s ∧ exec (.wrCommand 0x19) s = exec .test s
      ∧ exec (.wrCommand 0x1A) s = exec .getID s ∧ exec (.wrCommand 0x1B) s = exec .readS s
      ∧ ∀ op, op ∉ assignedOpcodes →
          exec (.wrCommand op) s = exec (.cmdError op) s
            ∧ (s.live → exec (.wrCommand op) s = .next (s.commandDone [.errorInt5] [0x11, 0x40]))

/-! ### Commands -/

/-- GETSTAT (spec/42_commands.md R160). -/
def Obligations.GetstatAnswersTheStatByte : Prop :=
  ∀ s : State, s.live → exec .getstat s = .next (s.commandDone [.firstInt3] [s.stat])

/-- SETLOC (R161, decisions D6, D7): three BCD parameters give `seek_sector` by the formula of R151; further parameters
are drained. -/
def Obligations.SetlocStoresTheSeekSector : Prop :=
  ∀ (s : State) (mm ss ff : Byte) (extra : List Byte), s.live → s.paramFifo = mm :: ss :: ff :: extra →
    exec .setloc s =
      .next { s.commandDone [.firstInt3] [s.stat] with
        seekSector := (nibbles mm * 60 + nibbles ss) * 75 + nibbles ff - 150 }

/-- PLAY and its alias GETLOCP (R162, R163, decisions D1, D21, D24, D33): with no parameter pending the drive starts
playing at the seek sector and the stat byte pushed shows it; with one pending, the fault is recorded. -/
def Obligations.PlayAndItsAliasStartPlaying : Prop :=
  ∀ (s : State) (i : Instr), i = .play ∨ i = .getlocP → s.live →
    (s.paramFifo = [] →
        exec i s =
          .next { s.commandDone [.firstInt3] [(s.stat &&& 0x1F) ||| 0x80] with
            stat := (s.stat &&& 0x1F) ||| 0x80, readSector := s.seekSector })
      ∧ (s.paramFifo ≠ [] →
          exec i s = .next { s with irqFifo := [], respFifo := [], faulted := some .playWithParams })

/-- READN and READS (R164, R179, decisions D1, D17, D24): the drive starts reading at the seek sector; the cadence
counter is not reloaded. -/
def Obligations.ReadCommandsStartReading : Prop :=
  ∀ (s : State) (i : Instr), i = .readN ∨ i = .readS → s.live →
    exec i s =
      .next { s.commandDone [.firstInt3] [(s.stat &&& 0x1F) ||| 0x20] with
        stat := (s.stat &&& 0x1F) ||| 0x20, readSector := s.seekSector }

/-- MOTORON (R165): spindle_motor_on becomes 1 and no other stat field changes; both groups carry the new byte. -/
def Obligations.MotorOnSetsTheSpindleBit : Prop :=
  ∀ s : State, s.live →
    ∃ stat' : Byte,
      (∀ f, statField stat' f = (decide (f = .spindleMotorOn) || statField s.stat f))
        ∧ exec .motorOn s =
          .next { s.commandDone [.firstInt3, .secondInt2] [stat', stat'] with stat := stat' }

/-- STOP (R166, decisions D1, D24, D39): drive stopped, motor off, both groups carry the new byte; nothing staged is
drained. -/
def Obligations.StopStopsTheDriveAndTheMotor : Prop :=
  ∀ s : State, s.live →
    exec .stop s =
      .next { s.commandDone [.firstInt3, .secondInt2] [s.stat &&& 0x1D, s.stat &&& 0x1D] with stat := s.stat &&& 0x1D }

/-- PAUSE (R167, decisions D1, D24): INT3 carries the byte before the pause, INT2 the byte after. -/
def Obligations.PauseReportsBeforeAndAfter : Prop :=
  ∀ s : State, s.live →
    exec .pause s =
      .next { s.commandDone [.firstInt3, .secondInt2] [s.stat, s.stat &&& 0x1F] with stat := s.stat &&& 0x1F }

/-- INIT (R168, decisions D1, D24): INT3 with the old byte, then stat 0x02 and mode 0x00, then INT2 with 0x02. That 0x02
is spindle_motor_on alone, so that a GetID after it never takes the shell-open branch, is the bit order of D1 (log 11).
-/
def Obligations.InitResetsStatAndMode : Prop :=
  ∀ s : State, s.live →
    exec .init s =
      .next { s.commandDone [.firstInt3, .secondInt2] [s.stat, 0x02] with stat := 0x02, mode := 0x00 }
      ∧ statField 0x02 .shellOpen = false ∧ (∀ f, statField 0x02 f = true ↔ f = .spindleMotorOn)

/-- MUTE and DEMUTE (R169, R170): the flag and the response; repeating the command changes nothing more. -/
def Obligations.MuteAndDemuteSetTheFlag : Prop :=
  ∀ s : State, s.live →
    exec .mute s = .next { s.commandDone [.firstInt3] [s.stat] with muted := true }
      ∧ exec .demute s = .next { s.commandDone [.firstInt3] [s.stat] with muted := false }
      ∧ (∀ t, exec .mute s = .next t → exec .mute t = .next t)
      ∧ ∀ t, exec .demute s = .next t → exec .demute t = .next t

/-- SETFILTER (R171, decisions D7, D8): the two raw bytes are echoed through `dec_to_bcd`; nothing is stored. -/
def Obligations.SetfilterEchoesItsParameters : Prop :=
  ∀ (s : State) (file channel : Byte) (extra : List Byte), s.live → s.paramFifo = file :: channel :: extra →
    exec .setfilter s =
      .next (s.commandDone [.firstInt3]
        [s.stat, BitVec.ofNat 8 (file.toNat / 10 * 16 + file.toNat % 10),
          BitVec.ofNat 8 (channel.toNat / 10 * 16 + channel.toNat % 10)])

/-- SETMODE (R172, decision D21): the parameter becomes the mode; with bit 4 set the fault is recorded after the push
and the write, and the frame's end is abandoned (log 9). -/
def Obligations.SetmodeWritesTheModeOrFaults : Prop :=
  ∀ (s : State) (m : Byte) (extra : List Byte), s.live → s.paramFifo = m :: extra →
    (m.getLsbD 4 = false → exec .setmode s = .next { s.commandDone [.firstInt3] [s.stat] with mode := m })
      ∧ (m.getLsbD 4 = true →
          exec .setmode s =
            .next { s with
              irqFifo := [.firstInt3], respFifo := [s.stat], paramFifo := extra, mode := m,
              faulted := some .setmodeBit4 })

/-- GETPARAM (R173): stat and two constant zero bytes. -/
def Obligations.GetparamAnswersTwoZeroBytes : Prop :=
  ∀ s : State, s.live → exec .getparam s = .next (s.commandDone [.firstInt3] [s.stat, 0x00, 0x00])

/-- GETTN (R174, decision D7): stat, track 01, and the track count through `dec_to_bcd`, which wraps from 100 on by the
formula the spec decides in R150. -/
def Obligations.GetTNReportsTheTrackCount : Prop :=
  ∀ s : State, s.live →
    exec .getTN s =
      .next (s.commandDone [.firstInt3]
        [s.stat, 0x01, BitVec.ofNat 8 (discTrackCount s.disc / 10 * 16 + discTrackCount s.disc % 10)])

/-- GETTD (R175, decisions D7, D9): the position of the track the BCD parameter names, or the disc's size for track 0;
only minutes and seconds are reported. -/
def Obligations.GetTDReportsMinutesAndSeconds : Prop :=
  ∀ (s : State) (t : Byte) (extra : List Byte), s.live → s.paramFifo = t :: extra →
    (nibbles t = 0 →
        exec .getTD s =
          .next (s.commandDone [.firstInt3]
            [s.stat, decToBcd (discSize s.disc).minutes, decToBcd (discSize s.disc).seconds]))
      ∧ ∀ track : Nat, nibbles t = track → track ≠ 0 →
          exec .getTD s =
            .next (s.commandDone [.firstInt3]
              [s.stat, decToBcd (discTrackStart s.disc track).minutes, decToBcd (discTrackStart s.disc track).seconds])

/-- SEEKL (R176, decisions D1, D24, D26): INT3 with the byte before, then Seeking at the seek sector, then INT2. -/
def Obligations.SeekLSeeksAndCompletesAtOnce : Prop :=
  ∀ s : State, s.live →
    exec .seekL s =
      .next { s.commandDone [.firstInt3, .secondInt2] [s.stat, (s.stat &&& 0x1F) ||| 0x40] with
        stat := (s.stat &&& 0x1F) ||| 0x40, readSector := s.seekSector }

/-- TEST (R177, decision D21): sub-function 0x20 answers the four constants, any other the command error; without a
parameter the fault is recorded, in a next state (log 8). -/
def Obligations.TestAnswersItsSubFunction : Prop :=
  ∀ s : State, s.live →
    (∀ extra, s.paramFifo = 0x20 :: extra →
        exec .test s = .next (s.commandDone [.firstInt3] [0x94, 0x09, 0x19, 0xC0]))
      ∧ (∀ sub extra, s.paramFifo = sub :: extra → sub ≠ 0x20 →
          exec .test s = .next (s.commandDone [.errorInt5] [0x11, 0x40]))
      ∧ (s.paramFifo = [] → ∃ t, exec .test s = .next t ∧ t.faulted = some .paramFifoEmpty)

/-- GETID (R178): the shell test first, then the disc. -/
def Obligations.GetIDTellsShellDiscAndNoDisc : Prop :=
  ∀ s : State, s.live →
    (statField s.stat .shellOpen = true → exec .getID s = .next (s.commandDone [.errorInt5] [0x11, 0x80]))
      ∧ (statField s.stat .shellOpen = false ∧ s.disc.isEmpty = false →
          exec .getID s =
            .next (s.commandDone [.firstInt3, .secondInt2]
              [s.stat, 0x02, 0x00, 0x20, 0x00, 0x53, 0x43, 0x45, 0x41]))
      ∧ (statField s.stat .shellOpen = false ∧ s.disc.isEmpty = true →
          exec .getID s =
            .next (s.commandDone [.firstInt3, .errorInt5]
              [s.stat, 0x08, 0x40, 0x00, 0x00, 0x00, 0x00, 0x00, 0x00]))

/-- CMD_ERROR (R180): the error response; no stat field changes. -/
def Obligations.CommandErrorAnswersIntFive : Prop :=
  ∀ (s : State) (op : Byte), s.live → exec (.cmdError op) s = .next (s.commandDone [.errorInt5] [0x11, 0x40])

/-- A command that finds fewer parameters than it consumes records ParamFifoEmpty (spec/41_command_interpreter.md R143,
decision D21; log 9): the responses are cleared and the parameters there were are consumed. -/
def Obligations.MissingParametersFault : Prop :=
  ∀ s : State, s.live →
    (s.paramFifo.length < 3 → exec .setloc s = .next s.commandStarved)
      ∧ (s.paramFifo.length < 2 → exec .setfilter s = .next s.commandStarved)
      ∧ (s.paramFifo = [] →
          exec .setmode s = .next s.commandStarved ∧ exec .getTD s = .next s.commandStarved
            ∧ exec .test s = .next s.commandStarved)

/-! ### Rules over all instructions -/

/-- The drain (spec/41_command_interpreter.md R146): after a command that runs to its end `param_fifo` is empty, and
parameters beyond those it consumes have no effect (Play and GetlocP, which fault on any, aside). -/
def Obligations.CommandsDrainTheirParameters : Prop :=
  ∀ (i : Instr) (s t : State), i.isCommand = true →
    (exec i s = .next t → t.live → t.paramFifo = [])
      ∧ (i ≠ .play → i ≠ .getlocP → s.paramFifo.length = operandCount i → exec i s = .next t → t.live →
          ∀ extra, exec i { s with paramFifo := s.paramFifo ++ extra } = .next t)

/-- spec/41_command_interpreter.md R147 (the spec's own inference): the status byte after a command that runs to its
end. It is busy, its response is there to read, the parameters are gone, and the data bit is that of the mode in force.
-/
def Obligations.CommandsLeaveTheStatusByteBusy : Prop :=
  ∀ (i : Instr) (s t : State), i.isCommand = true → exec i s = .next t → t.live →
    (statusByte t).extractLsb' 0 2 = s.index
      ∧ (statusByte t).getLsbD 2 = false ∧ (statusByte t).getLsbD 3 = true ∧ (statusByte t).getLsbD 4 = true
      ∧ (statusByte t).getLsbD 5 = true ∧ (statusByte t).getLsbD 6 = decide (0 < bytesLeft t)
      ∧ (statusByte t).getLsbD 7 = true

/-- spec/42_commands.md R182 (the spec's own inference): no command, faulting or not, writes the bank, the interrupt
enables, the cadence counter, the buffers and their cursor, or the disc; nor the model's own fields. -/
def Obligations.CommandsLeaveTheHostStateAlone : Prop :=
  ∀ (i : Instr) (s t : State), i.isCommand = true → exec i s = .next t →
    t.index = s.index ∧ t.intEnable = s.intEnable ∧ t.stepsUntilReadSect = s.stepsUntilReadSect
      ∧ t.dataBuf = s.dataBuf ∧ t.readBuf = s.readBuf ∧ t.dataLoaded = s.dataLoaded
      ∧ t.dataBufferIndex = s.dataBufferIndex ∧ t.disc = s.disc
      ∧ t.pending = s.pending ∧ t.trace = s.trace ∧ t.draws = s.draws

/-- spec/60_exceptions.md R257: what a command leaves does not depend on the codes that were pending, nor on the unread
response bytes: they are discarded before it pushes its own. -/
def Obligations.CommandsDiscardEarlierResponses : Prop :=
  ∀ (i : Instr) (s : State) (codes : List IrqCode) (bytes : List Byte), i.isCommand = true →
    exec i { s with irqFifo := codes, respFifo := bytes } = exec i s

/-- spec/40_register_file.md R120 (the spec's own inference): the bank changes only through WR_INDEX. -/
def Obligations.OnlyWriteIndexChangesTheBank : Prop :=
  ∀ s t : State,
    (∀ i, exec i s = .next t → (∀ bank value, i ≠ .wrIndex bank value) → t.index = s.index)
      ∧ (execStep s = .next t → t.index = s.index)
      ∧ (execReadWord s = .next t → t.index = s.index)
      ∧ ∀ image, execInsert image s = .next t → t.index = s.index

/-- spec/43_sector_reader.md R213 (the spec's own inference; bits by decisions D1, D3): after a command that runs to its
end the drive bits are those of the table, or as before where the table names no state; no other instruction, no
`step()` and no `read_word()` changes the stat byte, and an insertion clears shell_open only (decision D31). -/
def Obligations.OnlyTheListedCommandsChangeTheDriveState : Prop :=
  ∀ s t : State,
    (∀ i, i.isCommand = true → exec i s = .next t → t.live →
        t.stat &&& 0xE0 = match driveAfter i with
          | some d => d.bits
          | none => s.stat &&& 0xE0)
      ∧ (∀ i, i.isCommand = false → (∀ op, i ≠ .wrCommand op) → exec i s = .next t → t.stat = s.stat)
      ∧ (execStep s = .next t → t.stat = s.stat)
      ∧ (execReadWord s = .next t → t.stat = s.stat)
      ∧ ∀ image, execInsert image s = .next t → t.stat = s.stat &&& 0xEF

/-- spec/44_host_interface.md R237 (the spec's own inference; decision D19): `step()` raises at most once per call and
no other entry point raises. -/
def Obligations.OnlyStepRaisesAndAtMostOnce : Prop :=
  ∀ s t : State,
    (∀ i, exec i s = .next t → raiseCount t.trace = raiseCount s.trace)
      ∧ (execReadWord s = .next t → raiseCount t.trace = raiseCount s.trace)
      ∧ (∀ image, execInsert image s = .next t → raiseCount t.trace = raiseCount s.trace)
      ∧ (execStep s = .next t →
          raiseCount s.trace ≤ raiseCount t.trace ∧ raiseCount t.trace ≤ raiseCount s.trace + 1)

/-- spec/60_exceptions.md R259 (decisions D10, D21): every instruction runs in every live state, and it records a fault
exactly on the listed causes, with the listed reason. -/
def Obligations.FaultsExactlyOnTheListedCauses : Prop :=
  ∀ (i : Instr) (s : State), i.wf = true → s.live →
    ∃ t, exec i s = .next t ∧ t.faulted = faultCause i s.paramFifo

/-- spec/70_reset_and_hazards.md R287 and spec/60_exceptions.md R254 (decisions D11, D13): the code at the front stays
there through every register access but an acknowledge and a command, and through `step()`, `read_word()` and an
insertion. -/
def Obligations.FrontCodeStaysUntilAckOrCommand : Prop :=
  ∀ (s t : State) (code : IrqCode) (rest : List IrqCode), s.irqFifo = code :: rest →
    (∀ i, i.isCommand = false → (∀ op, i ≠ .wrCommand op) → (∀ value, i ≠ .wrIntAck value) →
        exec i s = .next t → t.irqFifo = code :: rest)
      ∧ (execReadWord s = .next t → t.irqFifo = code :: rest)
      ∧ (∀ image, execInsert image s = .next t → t.irqFifo = code :: rest)
      ∧ (execStep s = .next t → t.irqFifo = code :: rest ∨ t.irqFifo = code :: rest ++ [.secondInt1])

/-! ### The host tick, the sector fetch and the data path -/

/-- spec/43_sector_reader.md R201, R202 (decision D19): every `step()` clears the busy bit, and raises exactly when the
front code, as it stood before the step, has a bit in common with `int_enable[2:0]`. -/
def Obligations.StepClearsBusyAndRaisesTheEnabledFront : Prop :=
  ∀ s : State, s.live →
    ∃ t, execStep s = .next t ∧ t.transmitBusy = false
      ∧ (∀ code rest, s.irqFifo = code :: rest →
          t.trace = s.trace ++
            (if code.toByte.toNat &&& s.intEnable.toNat &&& 7 ≠ 0 then [.raised .cdrom] else []))
      ∧ (s.irqFifo = [] → t.trace = s.trace)

/-- R212: with the drive neither Reading nor Playing (Stopped or Seeking), `step()` performs only R201 and R202 (the
raise is an output by decision D19). -/
def Obligations.StoppedAndSeekingStepsFetchNothing : Prop :=
  ∀ s : State, s.live → statField s.stat .reading = false → statField s.stat .playing = false →
    execStep s = .next { s with transmitBusy := false, trace := s.trace ++ stepOutput s }

/-- R203 (decisions D17, D19): in Reading or Playing a step that does not bring the counter to 0 only counts down. -/
def Obligations.StepCountsDownTheCadence : Prop :=
  ∀ s : State, s.live → statField s.stat .reading = true ∨ statField s.stat .playing = true →
    s.stepsUntilReadSect ≠ 1 →
    execStep s =
      .next { s with
        transmitBusy := false
        trace := s.trace ++ stepOutput s
        stepsUntilReadSect := s.stepsUntilReadSect - 1 }

/-- R204 to R207, R210, R211 (decisions D11, D16, D18, D19): the step that brings the counter to 0 reloads it and
fetches the sector at `read_sector`. The LBA always advances; an Invalid sector does nothing more; any other is staged
in `read_buf`; and a Data sector while Reading pushes INT1 with the stat byte, each part dropped if its FIFO is full.
The sector fetched is the one the image stores at that LBA, where it stores one (R231, decision D20; log 6). -/
def Obligations.CadenceExpiryFetchesOneSector : Prop :=
  ∀ s : State, s.live → statField s.stat .reading = true ∨ statField s.stat .playing = true →
    s.stepsUntilReadSect = 1 →
    let stepped : State :=
      { s with
        transmitBusy := false
        trace := s.trace ++ stepOutput s
        stepsUntilReadSect := Config.readSectorDelaySteps
        readSector := s.readSector + 1 }
    let sector := discRead s.disc s.readSector
    (sector.kind = .invalid → execStep s = .next stepped)
      ∧ (sector.kind = .audio → execStep s = .next { stepped with readBuf := sector.bytes })
      ∧ (sector.kind = .data → statField s.stat .reading = false →
          execStep s = .next { stepped with readBuf := sector.bytes })
      ∧ (sector.kind = .data → statField s.stat .reading = true →
          execStep s =
            .next { stepped with
              readBuf := sector.bytes
              irqFifo := if s.irqFifo.length < 16 then s.irqFifo ++ [.secondInt1] else s.irqFifo
              respFifo := if s.respFifo.length < 16 then s.respFifo ++ [s.stat] else s.respFifo })
      ∧ (s.disc.wf = true → ∀ stored, (s.readSector, stored) ∈ s.disc.sectors → sector = stored)

/-- R208: the sync check compares the first 12 bytes with the magic and never changes state. Two images that answer a
fetch with the same kind, one with the magic and one without, leave states that differ only in the image and in
`read_buf`; and there a step that fetches a sector that is not Invalid stages each image's own bytes (decision D16), and
any other step leaves `read_buf` as it was. -/
def Obligations.SyncCheckNeverChangesState : Prop :=
  (∀ bytes : SectorBytes, syncOk bytes = true ↔
      bytes.toList.take 12 = [0x00, 0xFF, 0xFF, 0xFF, 0xFF, 0xFF, 0xFF, 0xFF, 0xFF, 0xFF, 0xFF, 0x00])
    ∧ ∀ (s t u : State) (a b : DiscImage),
        (discRead a s.readSector).kind = (discRead b s.readSector).kind →
        syncOk (discRead a s.readSector).bytes = true → syncOk (discRead b s.readSector).bytes = false →
        execStep { s with disc := a } = .next t → execStep { s with disc := b } = .next u →
          let staging : Prop :=
            (statField s.stat .reading = true ∨ statField s.stat .playing = true) ∧ s.stepsUntilReadSect = 1
              ∧ (discRead a s.readSector).kind ≠ .invalid
          u = { t with disc := b, readBuf := u.readBuf }
            ∧ (staging → t.readBuf = (discRead a s.readSector).bytes ∧ u.readBuf = (discRead b s.readSector).bytes)
            ∧ (¬staging → t.readBuf = s.readBuf ∧ u.readBuf = s.readBuf)

/-- spec/70_reset_and_hazards.md R293 (decisions D11, D16, D18): while Reading, a Data sector's INT1 arrives at the step
where the counter expires and not before: with `n + 1` on the counter, after `n` steps nothing is pushed, and after `n +
1` steps one INT1 group stands behind what was pending. -/
def Obligations.IntOneArrivesWhenTheCounterExpires : Prop :=
  ∀ (s : State) (n : Nat), s.live → statField s.stat .reading = true → s.stepsUntilReadSect = n + 1 →
    (discRead s.disc s.readSector).kind = .data → s.irqFifo.length < 16 → s.respFifo.length < 16 →
    (∃ t, runSteps n s = .next t ∧ t.irqFifo = s.irqFifo ∧ t.respFifo = s.respFifo ∧ t.readSector = s.readSector
        ∧ t.readBuf = s.readBuf ∧ t.stepsUntilReadSect = 1)
      ∧ ∃ u, runSteps (n + 1) s = .next u ∧ u.irqFifo = s.irqFifo ++ [.secondInt1]
          ∧ u.respFifo = s.respFifo ++ [s.stat] ∧ u.readSector = s.readSector + 1
          ∧ u.readBuf = (discRead s.disc s.readSector).bytes
          ∧ u.stepsUntilReadSect = Config.readSectorDelaySteps

/-- R217 (the spec's own inference; decisions D14, D30): `k` reads of slot 2, for any `k` up to the bytes left, deliver
the next `k` bytes of the sector in order and advance the cursor by `k`; when all are read the buffer is drained. -/
def Obligations.DataReadsDeliverTheSectorInOrder : Prop :=
  ∀ (s : State) (k : Nat), s.live → k ≤ bytesLeft s →
    ∃ t, runDataReads k s = .next t
      ∧ t = { s with
          dataBufferIndex := s.dataBufferIndex + k
          trace := s.trace ++ (List.range k).map fun j => .regByte (upcomingByte s j) }
      ∧ bytesLeft t = bytesLeft s - k

/-- R216 (decision D32): `read_word()` is the next four bytes, the first in bits 7:0, with 0x00 for those past the end
of the sector; the cursor advances over the bytes there were. -/
def Obligations.ReadWordTakesFourBytesLittleEndian : Prop :=
  ∀ s : State, s.live →
    ∃ w : Word,
      execReadWord s =
        .next { s with
          dataBufferIndex := s.dataBufferIndex + min 4 (bytesLeft s)
          trace := s.trace ++ [.dmaWord w] }
        ∧ w.toNat = (upcomingByte s 0).toNat + 256 * (upcomingByte s 1).toNat
            + 65536 * (upcomingByte s 2).toNat + 16777216 * (upcomingByte s 3).toNat

/-- spec/44_host_interface.md R234 (decision D31; the bit by D1): an insertion replaces the disc and closes the shell,
and changes nothing else. From then on the block's queries answer what the image records (R230, R231, decision D20; that
an image is a record of its answers, in one canonical form, is the model's choice, log 6): each stored sector, bytes and
kind, at its LBA, each track's start, the track count and the size. -/
def Obligations.InsertReplacesTheDiscAndClosesTheShell : Prop :=
  ∀ (s : State) (image : DiscImage), s.live →
    ∃ t, execInsert image s = .next t
      ∧ t = { s with disc := image, stat := s.stat &&& 0xEF }
      ∧ (image.wf = true →
          (∀ lba stored, (lba, stored) ∈ image.sectors → discRead t.disc lba = stored)
            ∧ ∀ track start, (track, start) ∈ image.tracks → discTrackStart t.disc track = start)
      ∧ (∀ n, image.trackCount = some n → discTrackCount t.disc = n)
      ∧ ∀ size, image.size = some size → discSize t.disc = size

/-! ### Arithmetic -/

/-- spec/41_command_interpreter.md R149, R150 (decision D7): the value of any byte is that of its nibbles; `dec_to_bcd`
of any number from 0 on is its tens above its units, modulo 256; and the two are inverse on 0..99. -/
def Obligations.BcdConversionsAreInverse : Prop :=
  (∀ b : Byte, (bcdToDec b : Int) = nibbles b)
    ∧ (∀ n : Nat, decToBcd n = BitVec.ofNat 8 (n / 10 * 16 + n % 10))
    ∧ (∀ n : Nat, n < 100 → bcdToDec (decToBcd n) = n)
    ∧ ∀ b : Byte, b.toNat / 16 ≤ 9 → b.toNat % 16 ≤ 9 → decToBcd (bcdToDec b) = b

/-- spec/41_command_interpreter.md R151, R152 (decisions D6, D34): `lba_to_msf` undoes `msf_to_lba` for every minute. -/
def Obligations.MsfRoundTripIsLossless : Prop :=
  ∀ m s f : Int, 0 ≤ m → 0 ≤ s → s ≤ 59 → 0 ≤ f → f ≤ 74 →
    msfToLba m s f = (m * 60 + s) * 75 + f - 150 ∧ lbaToMsf (msfToLba m s f) = ⟨m, s, f⟩

/-! ### The invariants -/

/-- spec/10_state.md R51 (the spec's own inference; decisions D3, D11, D18) with the stuck bits (U17, U18), mode bit 4
(decision D21) and the canonical form of the disc (log 6): from every state that meets
the invariants, a step that answers a next state leaves one that meets them. -/
def Obligations.EveryStepKeepsTheInvariants : Prop :=
  ∀ s t : State, Inv s → step s = .next t → Inv t
end

