-- ==== Sys2Proof/Laws/Decode.lean ====
section
/-! SUPPORT. Small facts of the decoder: the key is read back from its fields, and a command's byte is always a
command. -/

namespace Sys2Proof

theorem decodeKey_keyOf_read (slot : Slot) (index : Index) (value : Byte) :
    decodeKey (keyOf .read slot index) value = decodeRead slot index := by
  have h : ∀ (slot : Slot) (index : Index),
      (keyOf .read slot index).getLsbD 4 = false ∧ (keyOf .read slot index).extractLsb' 2 2 = slot
        ∧ (keyOf .read slot index).extractLsb' 0 2 = index := by decide
  obtain ⟨h1, h2, h3⟩ := h slot index
  rw [decodeKey, h1, h2, h3]; rfl

theorem decodeKey_keyOf_write (slot : Slot) (index : Index) (value : Byte) :
    decodeKey (keyOf .write slot index) value = decodeWrite slot index value := by
  have h : ∀ (slot : Slot) (index : Index),
      (keyOf .write slot index).getLsbD 4 = true ∧ (keyOf .write slot index).extractLsb' 2 2 = slot
        ∧ (keyOf .write slot index).extractLsb' 0 2 = index := by decide
  obtain ⟨h1, h2, h3⟩ := h slot index
  rw [decodeKey, h1, h2, h3]; rfl

/-- The three equations of `decode`. -/
theorem decode_nil (format : Format) : decode format [] = .error .noBytes := by cases format <;> rfl

theorem decode_cmd_cons (op : Byte) (rest : List Byte) : decode .cmd (op :: rest) = .ok (decodeCommand op, rest) := rfl

theorem decode_mmio_cons (k : Byte) (rest : List Byte) :
    decode .mmio (k :: rest) =
      if 32 ≤ k.toNat then .error .keyTooWide
      else if k.getLsbD 4 then
        match rest with
        | [] => .error .noValueByte
        | value :: rest' => .ok (decodeKey (k.setWidth 5) value, rest')
      else .ok (decodeKey (k.setWidth 5) 0, rest) := rfl

/-- The read access's one byte decodes to its cell, whatever follows. -/
theorem decode_readBytes (slot : Slot) (index : Index) (rest : List Byte) :
    decode .mmio ((readBytes slot index).2 ++ rest) = .ok (decodeRead slot index, rest) := by
  have h : ∀ (slot : Slot) (index : Index),
      ¬ 32 ≤ ((keyOf .read slot index).setWidth 8).toNat
        ∧ ((keyOf .read slot index).setWidth 8).getLsbD 4 = false
        ∧ ((keyOf .read slot index).setWidth 8).setWidth 5 = keyOf .read slot index := by decide
  simp only [readBytes, List.singleton_append, decode, h slot index, if_false, decodeKey_keyOf_read, Bool.false_eq_true]

/-- The write access's two bytes decode to its cell, whatever follows. -/
theorem decode_writeBytes (slot : Slot) (index : Index) (value : Byte) (rest : List Byte) :
    decode .mmio ((writeBytes slot index value).2 ++ rest) = .ok (decodeWrite slot index value, rest) := by
  have h : ∀ (slot : Slot) (index : Index),
      ¬ 32 ≤ ((keyOf .write slot index).setWidth 8).toNat
        ∧ ((keyOf .write slot index).setWidth 8).getLsbD 4 = true
        ∧ ((keyOf .write slot index).setWidth 8).setWidth 5 = keyOf .write slot index := by decide
  simp only [writeBytes, List.cons_append, List.nil_append, decode, h slot index, if_false, if_true,
    decodeKey_keyOf_write]

/-- Every opcode byte is a well-formed command (spec/30_encoding.md R85). -/
theorem decodeCommand_isCommand (op : Byte) : (decodeCommand op).isCommand = true ∧ (decodeCommand op).wf = true := by
  revert op; decide

/-- An unassigned byte is the command error of that byte (spec/30_encoding.md R89). -/
theorem decodeCommand_of_unassigned {op : Byte} (h : op ∉ assignedOpcodes) : decodeCommand op = .cmdError op := by
  have all : ∀ op : Byte, isAssigned op = false → decodeCommand op = .cmdError op := by decide
  exact all op (by simpa [isAssigned] using h)

end Sys2Proof
end

