-- ==== Sys2Proof/Laws/State.lean ====
section
/-! SUPPORT. For each named update of the state, what each field holds after it: true by rfl, so that no later proof
unfolds a record update. -/

namespace Sys2Proof.Machine

variable (s : State)

/-! ### The fault entry (spec/60_exceptions.md R258) -/

@[simp] theorem State.raiseFault_index (r : Fault) : (s.raiseFault r).index = s.index := rfl
@[simp] theorem State.raiseFault_adpcmFifoEmpty (r : Fault) : (s.raiseFault r).adpcmFifoEmpty = s.adpcmFifoEmpty := rfl
@[simp] theorem State.raiseFault_transmitBusy (r : Fault) : (s.raiseFault r).transmitBusy = s.transmitBusy := rfl
@[simp] theorem State.raiseFault_stat (r : Fault) : (s.raiseFault r).stat = s.stat := rfl
@[simp] theorem State.raiseFault_mode (r : Fault) : (s.raiseFault r).mode = s.mode := rfl
@[simp] theorem State.raiseFault_intEnable (r : Fault) : (s.raiseFault r).intEnable = s.intEnable := rfl
@[simp] theorem State.raiseFault_paramFifo (r : Fault) : (s.raiseFault r).paramFifo = s.paramFifo := rfl
@[simp] theorem State.raiseFault_respFifo (r : Fault) : (s.raiseFault r).respFifo = s.respFifo := rfl
@[simp] theorem State.raiseFault_irqFifo (r : Fault) : (s.raiseFault r).irqFifo = s.irqFifo := rfl
@[simp] theorem State.raiseFault_dataBuf (r : Fault) : (s.raiseFault r).dataBuf = s.dataBuf := rfl
@[simp] theorem State.raiseFault_dataLoaded (r : Fault) : (s.raiseFault r).dataLoaded = s.dataLoaded := rfl
@[simp] theorem State.raiseFault_dataBufferIndex (r : Fault) : (s.raiseFault r).dataBufferIndex = s.dataBufferIndex := rfl
@[simp] theorem State.raiseFault_readBuf (r : Fault) : (s.raiseFault r).readBuf = s.readBuf := rfl
@[simp] theorem State.raiseFault_seekSector (r : Fault) : (s.raiseFault r).seekSector = s.seekSector := rfl
@[simp] theorem State.raiseFault_readSector (r : Fault) : (s.raiseFault r).readSector = s.readSector := rfl
@[simp] theorem State.raiseFault_stepsUntilReadSect (r : Fault) : (s.raiseFault r).stepsUntilReadSect = s.stepsUntilReadSect := rfl
@[simp] theorem State.raiseFault_muted (r : Fault) : (s.raiseFault r).muted = s.muted := rfl
@[simp] theorem State.raiseFault_disc (r : Fault) : (s.raiseFault r).disc = s.disc := rfl
@[simp] theorem State.raiseFault_faulted (r : Fault) : (s.raiseFault r).faulted = some r := rfl
@[simp] theorem State.raiseFault_pending (r : Fault) : (s.raiseFault r).pending = s.pending := rfl
@[simp] theorem State.raiseFault_trace (r : Fault) : (s.raiseFault r).trace = s.trace := rfl
@[simp] theorem State.raiseFault_draws (r : Fault) : (s.raiseFault r).draws = s.draws := rfl

/-! ### One observable event (spec/44_host_interface.md R242) -/

@[simp] theorem State.emit_index (o : Output) : (s.emit o).index = s.index := rfl
@[simp] theorem State.emit_adpcmFifoEmpty (o : Output) : (s.emit o).adpcmFifoEmpty = s.adpcmFifoEmpty := rfl
@[simp] theorem State.emit_transmitBusy (o : Output) : (s.emit o).transmitBusy = s.transmitBusy := rfl
@[simp] theorem State.emit_stat (o : Output) : (s.emit o).stat = s.stat := rfl
@[simp] theorem State.emit_mode (o : Output) : (s.emit o).mode = s.mode := rfl
@[simp] theorem State.emit_intEnable (o : Output) : (s.emit o).intEnable = s.intEnable := rfl
@[simp] theorem State.emit_paramFifo (o : Output) : (s.emit o).paramFifo = s.paramFifo := rfl
@[simp] theorem State.emit_respFifo (o : Output) : (s.emit o).respFifo = s.respFifo := rfl
@[simp] theorem State.emit_irqFifo (o : Output) : (s.emit o).irqFifo = s.irqFifo := rfl
@[simp] theorem State.emit_dataBuf (o : Output) : (s.emit o).dataBuf = s.dataBuf := rfl
@[simp] theorem State.emit_dataLoaded (o : Output) : (s.emit o).dataLoaded = s.dataLoaded := rfl
@[simp] theorem State.emit_dataBufferIndex (o : Output) : (s.emit o).dataBufferIndex = s.dataBufferIndex := rfl
@[simp] theorem State.emit_readBuf (o : Output) : (s.emit o).readBuf = s.readBuf := rfl
@[simp] theorem State.emit_seekSector (o : Output) : (s.emit o).seekSector = s.seekSector := rfl
@[simp] theorem State.emit_readSector (o : Output) : (s.emit o).readSector = s.readSector := rfl
@[simp] theorem State.emit_stepsUntilReadSect (o : Output) : (s.emit o).stepsUntilReadSect = s.stepsUntilReadSect := rfl
@[simp] theorem State.emit_muted (o : Output) : (s.emit o).muted = s.muted := rfl
@[simp] theorem State.emit_disc (o : Output) : (s.emit o).disc = s.disc := rfl
@[simp] theorem State.emit_faulted (o : Output) : (s.emit o).faulted = s.faulted := rfl
@[simp] theorem State.emit_pending (o : Output) : (s.emit o).pending = s.pending := rfl
@[simp] theorem State.emit_trace (o : Output) : (s.emit o).trace = s.trace ++ [o] := rfl
@[simp] theorem State.emit_draws (o : Output) : (s.emit o).draws = s.draws := rfl

/-! ### `push_response` (spec/41_command_interpreter.md R141) -/

@[simp] theorem State.pushResponse_index (c : IrqCode) (bs : List Byte) : (s.pushResponse c bs).index = s.index := rfl
@[simp] theorem State.pushResponse_adpcmFifoEmpty (c : IrqCode) (bs : List Byte) : (s.pushResponse c bs).adpcmFifoEmpty = s.adpcmFifoEmpty := rfl
@[simp] theorem State.pushResponse_transmitBusy (c : IrqCode) (bs : List Byte) : (s.pushResponse c bs).transmitBusy = s.transmitBusy := rfl
@[simp] theorem State.pushResponse_stat (c : IrqCode) (bs : List Byte) : (s.pushResponse c bs).stat = s.stat := rfl
@[simp] theorem State.pushResponse_mode (c : IrqCode) (bs : List Byte) : (s.pushResponse c bs).mode = s.mode := rfl
@[simp] theorem State.pushResponse_intEnable (c : IrqCode) (bs : List Byte) : (s.pushResponse c bs).intEnable = s.intEnable := rfl
@[simp] theorem State.pushResponse_paramFifo (c : IrqCode) (bs : List Byte) : (s.pushResponse c bs).paramFifo = s.paramFifo := rfl
@[simp] theorem State.pushResponse_respFifo (c : IrqCode) (bs : List Byte) : (s.pushResponse c bs).respFifo = pushAllBounded s.respFifo bs := rfl
@[simp] theorem State.pushResponse_irqFifo (c : IrqCode) (bs : List Byte) : (s.pushResponse c bs).irqFifo = pushBounded s.irqFifo c := rfl
@[simp] theorem State.pushResponse_dataBuf (c : IrqCode) (bs : List Byte) : (s.pushResponse c bs).dataBuf = s.dataBuf := rfl
@[simp] theorem State.pushResponse_dataLoaded (c : IrqCode) (bs : List Byte) : (s.pushResponse c bs).dataLoaded = s.dataLoaded := rfl
@[simp] theorem State.pushResponse_dataBufferIndex (c : IrqCode) (bs : List Byte) : (s.pushResponse c bs).dataBufferIndex = s.dataBufferIndex := rfl
@[simp] theorem State.pushResponse_readBuf (c : IrqCode) (bs : List Byte) : (s.pushResponse c bs).readBuf = s.readBuf := rfl
@[simp] theorem State.pushResponse_seekSector (c : IrqCode) (bs : List Byte) : (s.pushResponse c bs).seekSector = s.seekSector := rfl
@[simp] theorem State.pushResponse_readSector (c : IrqCode) (bs : List Byte) : (s.pushResponse c bs).readSector = s.readSector := rfl
@[simp] theorem State.pushResponse_stepsUntilReadSect (c : IrqCode) (bs : List Byte) : (s.pushResponse c bs).stepsUntilReadSect = s.stepsUntilReadSect := rfl
@[simp] theorem State.pushResponse_muted (c : IrqCode) (bs : List Byte) : (s.pushResponse c bs).muted = s.muted := rfl
@[simp] theorem State.pushResponse_disc (c : IrqCode) (bs : List Byte) : (s.pushResponse c bs).disc = s.disc := rfl
@[simp] theorem State.pushResponse_faulted (c : IrqCode) (bs : List Byte) : (s.pushResponse c bs).faulted = s.faulted := rfl
@[simp] theorem State.pushResponse_pending (c : IrqCode) (bs : List Byte) : (s.pushResponse c bs).pending = s.pending := rfl
@[simp] theorem State.pushResponse_trace (c : IrqCode) (bs : List Byte) : (s.pushResponse c bs).trace = s.trace := rfl
@[simp] theorem State.pushResponse_draws (c : IrqCode) (bs : List Byte) : (s.pushResponse c bs).draws = s.draws := rfl

/-! ### A stat response (R144) -/

@[simp] theorem State.pushStat_index (c : IrqCode) : (s.pushStat c).index = s.index := rfl
@[simp] theorem State.pushStat_adpcmFifoEmpty (c : IrqCode) : (s.pushStat c).adpcmFifoEmpty = s.adpcmFifoEmpty := rfl
@[simp] theorem State.pushStat_transmitBusy (c : IrqCode) : (s.pushStat c).transmitBusy = s.transmitBusy := rfl
@[simp] theorem State.pushStat_stat (c : IrqCode) : (s.pushStat c).stat = s.stat := rfl
@[simp] theorem State.pushStat_mode (c : IrqCode) : (s.pushStat c).mode = s.mode := rfl
@[simp] theorem State.pushStat_intEnable (c : IrqCode) : (s.pushStat c).intEnable = s.intEnable := rfl
@[simp] theorem State.pushStat_paramFifo (c : IrqCode) : (s.pushStat c).paramFifo = s.paramFifo := rfl
@[simp] theorem State.pushStat_respFifo (c : IrqCode) : (s.pushStat c).respFifo = pushAllBounded s.respFifo [s.stat] := rfl
@[simp] theorem State.pushStat_irqFifo (c : IrqCode) : (s.pushStat c).irqFifo = pushBounded s.irqFifo c := rfl
@[simp] theorem State.pushStat_dataBuf (c : IrqCode) : (s.pushStat c).dataBuf = s.dataBuf := rfl
@[simp] theorem State.pushStat_dataLoaded (c : IrqCode) : (s.pushStat c).dataLoaded = s.dataLoaded := rfl
@[simp] theorem State.pushStat_dataBufferIndex (c : IrqCode) : (s.pushStat c).dataBufferIndex = s.dataBufferIndex := rfl
@[simp] theorem State.pushStat_readBuf (c : IrqCode) : (s.pushStat c).readBuf = s.readBuf := rfl
@[simp] theorem State.pushStat_seekSector (c : IrqCode) : (s.pushStat c).seekSector = s.seekSector := rfl
@[simp] theorem State.pushStat_readSector (c : IrqCode) : (s.pushStat c).readSector = s.readSector := rfl
@[simp] theorem State.pushStat_stepsUntilReadSect (c : IrqCode) : (s.pushStat c).stepsUntilReadSect = s.stepsUntilReadSect := rfl
@[simp] theorem State.pushStat_muted (c : IrqCode) : (s.pushStat c).muted = s.muted := rfl
@[simp] theorem State.pushStat_disc (c : IrqCode) : (s.pushStat c).disc = s.disc := rfl
@[simp] theorem State.pushStat_faulted (c : IrqCode) : (s.pushStat c).faulted = s.faulted := rfl
@[simp] theorem State.pushStat_pending (c : IrqCode) : (s.pushStat c).pending = s.pending := rfl
@[simp] theorem State.pushStat_trace (c : IrqCode) : (s.pushStat c).trace = s.trace := rfl
@[simp] theorem State.pushStat_draws (c : IrqCode) : (s.pushStat c).draws = s.draws := rfl

/-! ### The acknowledge (spec/60_exceptions.md R261) -/

@[simp] theorem State.popIrq_index : (s.popIrq).index = s.index := rfl
@[simp] theorem State.popIrq_adpcmFifoEmpty : (s.popIrq).adpcmFifoEmpty = s.adpcmFifoEmpty := rfl
@[simp] theorem State.popIrq_transmitBusy : (s.popIrq).transmitBusy = s.transmitBusy := rfl
@[simp] theorem State.popIrq_stat : (s.popIrq).stat = s.stat := rfl
@[simp] theorem State.popIrq_mode : (s.popIrq).mode = s.mode := rfl
@[simp] theorem State.popIrq_intEnable : (s.popIrq).intEnable = s.intEnable := rfl
@[simp] theorem State.popIrq_paramFifo : (s.popIrq).paramFifo = s.paramFifo := rfl
@[simp] theorem State.popIrq_respFifo : (s.popIrq).respFifo = s.respFifo := rfl
@[simp] theorem State.popIrq_irqFifo : (s.popIrq).irqFifo = s.irqFifo.tail := rfl
@[simp] theorem State.popIrq_dataBuf : (s.popIrq).dataBuf = s.dataBuf := rfl
@[simp] theorem State.popIrq_dataLoaded : (s.popIrq).dataLoaded = s.dataLoaded := rfl
@[simp] theorem State.popIrq_dataBufferIndex : (s.popIrq).dataBufferIndex = s.dataBufferIndex := rfl
@[simp] theorem State.popIrq_readBuf : (s.popIrq).readBuf = s.readBuf := rfl
@[simp] theorem State.popIrq_seekSector : (s.popIrq).seekSector = s.seekSector := rfl
@[simp] theorem State.popIrq_readSector : (s.popIrq).readSector = s.readSector := rfl
@[simp] theorem State.popIrq_stepsUntilReadSect : (s.popIrq).stepsUntilReadSect = s.stepsUntilReadSect := rfl
@[simp] theorem State.popIrq_muted : (s.popIrq).muted = s.muted := rfl
@[simp] theorem State.popIrq_disc : (s.popIrq).disc = s.disc := rfl
@[simp] theorem State.popIrq_faulted : (s.popIrq).faulted = s.faulted := rfl
@[simp] theorem State.popIrq_pending : (s.popIrq).pending = s.pending := rfl
@[simp] theorem State.popIrq_trace : (s.popIrq).trace = s.trace := rfl
@[simp] theorem State.popIrq_draws : (s.popIrq).draws = s.draws := rfl

/-! ### `set_state` (spec/10_state.md R30) -/

@[simp] theorem State.setDrive_index (d : DriveState) : (s.setDrive d).index = s.index := rfl
@[simp] theorem State.setDrive_adpcmFifoEmpty (d : DriveState) : (s.setDrive d).adpcmFifoEmpty = s.adpcmFifoEmpty := rfl
@[simp] theorem State.setDrive_transmitBusy (d : DriveState) : (s.setDrive d).transmitBusy = s.transmitBusy := rfl
@[simp] theorem State.setDrive_stat (d : DriveState) : (s.setDrive d).stat = setDriveBits s.stat d := rfl
@[simp] theorem State.setDrive_mode (d : DriveState) : (s.setDrive d).mode = s.mode := rfl
@[simp] theorem State.setDrive_intEnable (d : DriveState) : (s.setDrive d).intEnable = s.intEnable := rfl
@[simp] theorem State.setDrive_paramFifo (d : DriveState) : (s.setDrive d).paramFifo = s.paramFifo := rfl
@[simp] theorem State.setDrive_respFifo (d : DriveState) : (s.setDrive d).respFifo = s.respFifo := rfl
@[simp] theorem State.setDrive_irqFifo (d : DriveState) : (s.setDrive d).irqFifo = s.irqFifo := rfl
@[simp] theorem State.setDrive_dataBuf (d : DriveState) : (s.setDrive d).dataBuf = s.dataBuf := rfl
@[simp] theorem State.setDrive_dataLoaded (d : DriveState) : (s.setDrive d).dataLoaded = s.dataLoaded := rfl
@[simp] theorem State.setDrive_dataBufferIndex (d : DriveState) : (s.setDrive d).dataBufferIndex = s.dataBufferIndex := rfl
@[simp] theorem State.setDrive_readBuf (d : DriveState) : (s.setDrive d).readBuf = s.readBuf := rfl
@[simp] theorem State.setDrive_seekSector (d : DriveState) : (s.setDrive d).seekSector = s.seekSector := rfl
@[simp] theorem State.setDrive_readSector (d : DriveState) : (s.setDrive d).readSector = s.readSector := rfl
@[simp] theorem State.setDrive_stepsUntilReadSect (d : DriveState) : (s.setDrive d).stepsUntilReadSect = s.stepsUntilReadSect := rfl
@[simp] theorem State.setDrive_muted (d : DriveState) : (s.setDrive d).muted = s.muted := rfl
@[simp] theorem State.setDrive_disc (d : DriveState) : (s.setDrive d).disc = s.disc := rfl
@[simp] theorem State.setDrive_faulted (d : DriveState) : (s.setDrive d).faulted = s.faulted := rfl
@[simp] theorem State.setDrive_pending (d : DriveState) : (s.setDrive d).pending = s.pending := rfl
@[simp] theorem State.setDrive_trace (d : DriveState) : (s.setDrive d).trace = s.trace := rfl
@[simp] theorem State.setDrive_draws (d : DriveState) : (s.setDrive d).draws = s.draws := rfl

/-! ### `read_sector <- seek_sector` (spec/10_state.md R40) -/

@[simp] theorem State.startAtSeek_index : (s.startAtSeek).index = s.index := rfl
@[simp] theorem State.startAtSeek_adpcmFifoEmpty : (s.startAtSeek).adpcmFifoEmpty = s.adpcmFifoEmpty := rfl
@[simp] theorem State.startAtSeek_transmitBusy : (s.startAtSeek).transmitBusy = s.transmitBusy := rfl
@[simp] theorem State.startAtSeek_stat : (s.startAtSeek).stat = s.stat := rfl
@[simp] theorem State.startAtSeek_mode : (s.startAtSeek).mode = s.mode := rfl
@[simp] theorem State.startAtSeek_intEnable : (s.startAtSeek).intEnable = s.intEnable := rfl
@[simp] theorem State.startAtSeek_paramFifo : (s.startAtSeek).paramFifo = s.paramFifo := rfl
@[simp] theorem State.startAtSeek_respFifo : (s.startAtSeek).respFifo = s.respFifo := rfl
@[simp] theorem State.startAtSeek_irqFifo : (s.startAtSeek).irqFifo = s.irqFifo := rfl
@[simp] theorem State.startAtSeek_dataBuf : (s.startAtSeek).dataBuf = s.dataBuf := rfl
@[simp] theorem State.startAtSeek_dataLoaded : (s.startAtSeek).dataLoaded = s.dataLoaded := rfl
@[simp] theorem State.startAtSeek_dataBufferIndex : (s.startAtSeek).dataBufferIndex = s.dataBufferIndex := rfl
@[simp] theorem State.startAtSeek_readBuf : (s.startAtSeek).readBuf = s.readBuf := rfl
@[simp] theorem State.startAtSeek_seekSector : (s.startAtSeek).seekSector = s.seekSector := rfl
@[simp] theorem State.startAtSeek_readSector : (s.startAtSeek).readSector = s.seekSector := rfl
@[simp] theorem State.startAtSeek_stepsUntilReadSect : (s.startAtSeek).stepsUntilReadSect = s.stepsUntilReadSect := rfl
@[simp] theorem State.startAtSeek_muted : (s.startAtSeek).muted = s.muted := rfl
@[simp] theorem State.startAtSeek_disc : (s.startAtSeek).disc = s.disc := rfl
@[simp] theorem State.startAtSeek_faulted : (s.startAtSeek).faulted = s.faulted := rfl
@[simp] theorem State.startAtSeek_pending : (s.startAtSeek).pending = s.pending := rfl
@[simp] theorem State.startAtSeek_trace : (s.startAtSeek).trace = s.trace := rfl
@[simp] theorem State.startAtSeek_draws : (s.startAtSeek).draws = s.draws := rfl

/-! ### The start of the command frame (R140) -/

@[simp] theorem State.clearResponses_index : (s.clearResponses).index = s.index := rfl
@[simp] theorem State.clearResponses_adpcmFifoEmpty : (s.clearResponses).adpcmFifoEmpty = s.adpcmFifoEmpty := rfl
@[simp] theorem State.clearResponses_transmitBusy : (s.clearResponses).transmitBusy = s.transmitBusy := rfl
@[simp] theorem State.clearResponses_stat : (s.clearResponses).stat = s.stat := rfl
@[simp] theorem State.clearResponses_mode : (s.clearResponses).mode = s.mode := rfl
@[simp] theorem State.clearResponses_intEnable : (s.clearResponses).intEnable = s.intEnable := rfl
@[simp] theorem State.clearResponses_paramFifo : (s.clearResponses).paramFifo = s.paramFifo := rfl
@[simp] theorem State.clearResponses_respFifo : (s.clearResponses).respFifo = [] := rfl
@[simp] theorem State.clearResponses_irqFifo : (s.clearResponses).irqFifo = [] := rfl
@[simp] theorem State.clearResponses_dataBuf : (s.clearResponses).dataBuf = s.dataBuf := rfl
@[simp] theorem State.clearResponses_dataLoaded : (s.clearResponses).dataLoaded = s.dataLoaded := rfl
@[simp] theorem State.clearResponses_dataBufferIndex : (s.clearResponses).dataBufferIndex = s.dataBufferIndex := rfl
@[simp] theorem State.clearResponses_readBuf : (s.clearResponses).readBuf = s.readBuf := rfl
@[simp] theorem State.clearResponses_seekSector : (s.clearResponses).seekSector = s.seekSector := rfl
@[simp] theorem State.clearResponses_readSector : (s.clearResponses).readSector = s.readSector := rfl
@[simp] theorem State.clearResponses_stepsUntilReadSect : (s.clearResponses).stepsUntilReadSect = s.stepsUntilReadSect := rfl
@[simp] theorem State.clearResponses_muted : (s.clearResponses).muted = s.muted := rfl
@[simp] theorem State.clearResponses_disc : (s.clearResponses).disc = s.disc := rfl
@[simp] theorem State.clearResponses_faulted : (s.clearResponses).faulted = s.faulted := rfl
@[simp] theorem State.clearResponses_pending : (s.clearResponses).pending = s.pending := rfl
@[simp] theorem State.clearResponses_trace : (s.clearResponses).trace = s.trace := rfl
@[simp] theorem State.clearResponses_draws : (s.clearResponses).draws = s.draws := rfl

/-! ### The end of the command frame (R146, R147) -/

@[simp] theorem State.finishCommand_index : (s.finishCommand).index = s.index := rfl
@[simp] theorem State.finishCommand_adpcmFifoEmpty : (s.finishCommand).adpcmFifoEmpty = false := rfl
@[simp] theorem State.finishCommand_transmitBusy : (s.finishCommand).transmitBusy = true := rfl
@[simp] theorem State.finishCommand_stat : (s.finishCommand).stat = s.stat := rfl
@[simp] theorem State.finishCommand_mode : (s.finishCommand).mode = s.mode := rfl
@[simp] theorem State.finishCommand_intEnable : (s.finishCommand).intEnable = s.intEnable := rfl
@[simp] theorem State.finishCommand_paramFifo : (s.finishCommand).paramFifo = [] := rfl
@[simp] theorem State.finishCommand_respFifo : (s.finishCommand).respFifo = s.respFifo := rfl
@[simp] theorem State.finishCommand_irqFifo : (s.finishCommand).irqFifo = s.irqFifo := rfl
@[simp] theorem State.finishCommand_dataBuf : (s.finishCommand).dataBuf = s.dataBuf := rfl
@[simp] theorem State.finishCommand_dataLoaded : (s.finishCommand).dataLoaded = s.dataLoaded := rfl
@[simp] theorem State.finishCommand_dataBufferIndex : (s.finishCommand).dataBufferIndex = s.dataBufferIndex := rfl
@[simp] theorem State.finishCommand_readBuf : (s.finishCommand).readBuf = s.readBuf := rfl
@[simp] theorem State.finishCommand_seekSector : (s.finishCommand).seekSector = s.seekSector := rfl
@[simp] theorem State.finishCommand_readSector : (s.finishCommand).readSector = s.readSector := rfl
@[simp] theorem State.finishCommand_stepsUntilReadSect : (s.finishCommand).stepsUntilReadSect = s.stepsUntilReadSect := rfl
@[simp] theorem State.finishCommand_muted : (s.finishCommand).muted = s.muted := rfl
@[simp] theorem State.finishCommand_disc : (s.finishCommand).disc = s.disc := rfl
@[simp] theorem State.finishCommand_faulted : (s.finishCommand).faulted = s.faulted := rfl
@[simp] theorem State.finishCommand_pending : (s.finishCommand).pending = s.pending := rfl
@[simp] theorem State.finishCommand_trace : (s.finishCommand).trace = s.trace := rfl
@[simp] theorem State.finishCommand_draws : (s.finishCommand).draws = s.draws := rfl

end Sys2Proof.Machine
end

