-- ==== Sys2Proof/Laws/Operands.lean ====
section
/-! SUPPORT. The operands: `get_param` on each shape of the FIFO, and the arithmetic of
spec/41_command_interpreter.md R149 to R152. -/

namespace Sys2Proof.Machine

@[simp] theorem getParam_nil {s : State} (h : s.paramFifo = []) (go : Byte → State → State) :
    getParam s go = s.raiseFault .paramFifoEmpty := by
  simp [getParam, h]

theorem getParam_cons {s : State} {v : Byte} {rest : List Byte} (h : s.paramFifo = v :: rest)
    (go : Byte → State → State) : getParam s go = go v { s with paramFifo := rest } := by
  simp [getParam, h]

theorem bcdToDec_eq (b : Byte) : bcdToDec b = 10 * (b.toNat / 16) + b.toNat % 16 := by
  revert b; decide

/-- Any byte decodes to 0..165 (R149). -/
theorem bcdToDec_le (b : Byte) : bcdToDec b ≤ 165 := by
  rw [bcdToDec_eq]; have := b.isLt; omega

theorem decToBcd_nat (n : Nat) : decToBcd n = natToBcd n := by simp [decToBcd]

/-- The shift and the or of R150 as a sum: the two nibbles do not meet. -/
theorem natToBcd_eq (n : Nat) : natToBcd n = BitVec.ofNat 8 (n / 10 * 16 + n % 10) := by
  unfold natToBcd
  have h : n % 10 < 2 ^ 4 := by omega
  rw [← Nat.shiftLeft_add_eq_or_of_lt h, Nat.shiftLeft_eq]

theorem msfToLba_eq (m s f : Int) : msfToLba m s f = (m * 60 + s) * 75 + f - 150 := rfl

end Sys2Proof.Machine
end

