-- ==== Sys2Proof/Laws/Flags.lean ====
section
/-! SUPPORT. The bit fields: what each update of the stat byte does to each field, and the size and offset of the two
sector modes. A fact about the bits of one byte at once is checked over
all 256 of them. -/

namespace Sys2Proof.Machine

/-- Writing a field changes that field only (spec/00_scope.md R11). -/
theorem statField_setStatField (stat : Byte) (f g : StatField) (b : Bool) :
    statField (setStatField stat f b) g = if g = f then b else statField stat g := by
  cases b <;> cases f <;> cases g <;> simp [statField, setStatField, StatField.bit, bitAt]

theorem statField_setDriveBits_low (stat : Byte) (d : DriveState) (f : StatField)
    (h : f ≠ .reading ∧ f ≠ .seeking ∧ f ≠ .playing) : statField (setDriveBits stat d) f = statField stat f := by
  cases f <;> simp_all <;> cases d <;> simp [statField, setDriveBits, StatField.bit, DriveState.bits]

/-- The table of spec/10_state.md R30. -/
theorem statField_setDriveBits_drive (stat : Byte) (d : DriveState) :
    statField (setDriveBits stat d) .reading = decide (d = .reading)
      ∧ statField (setDriveBits stat d) .seeking = decide (d = .seeking)
      ∧ statField (setDriveBits stat d) .playing = decide (d = .playing) := by
  cases d <;> simp [statField, setDriveBits, StatField.bit, DriveState.bits]

theorem driveLegal_setDriveBits (stat : Byte) (d : DriveState) : driveLegal (setDriveBits stat d) := by
  have h := statField_setDriveBits_drive stat d
  cases d <;> simp_all [driveLegal]

/-- Writing a field outside the drive state keeps it legal. -/
theorem driveLegal_setStatField {stat : Byte} (h : driveLegal stat) (f : StatField) (b : Bool)
    (hf : f ≠ .reading ∧ f ≠ .seeking ∧ f ≠ .playing) : driveLegal (setStatField stat f b) := by
  obtain ⟨hr, hs, hp⟩ := hf
  simp only [driveLegal, statField_setStatField, Ne.symm hr, Ne.symm hs, Ne.symm hp, if_false]
  exact h

theorem driveBits_setDriveBits (stat : Byte) (d : DriveState) : setDriveBits stat d &&& 0xE0 = d.bits := by
  revert stat; cases d <;> decide

/-- The two sizes of spec/10_state.md R32. -/
theorem sectorSize_eq (mode : Byte) : sectorSize mode = if mode.getLsbD 5 then 2340 else 2048 := rfl

/-- The two offsets of spec/10_state.md R32. -/
theorem dataOffset_eq (mode : Byte) : dataOffset mode = if mode.getLsbD 5 then 12 else 24 := rfl

theorem sectorSize_le (mode : Byte) : sectorSize mode ≤ 2340 := by rw [sectorSize_eq]; split <;> omega

/-- A byte that is delivered lies inside the sector: `data_buf[24]` to `[2071]`, or `[12]` to `[2351]`
(spec/43_sector_reader.md R214). -/
theorem dataIndex_lt {mode : Byte} {k : Nat} (h : k < sectorSize mode) : dataOffset mode + k < 2352 := by
  rw [sectorSize_eq] at h; rw [dataOffset_eq]; split at h <;> simp_all <;> omega

/-- The data bit says whether bytes are left (spec/10_state.md R39). -/
theorem dataFifoNotEmpty_eq (s : State) : dataFifoNotEmpty s = decide (0 < bytesLeft s) := by
  unfold dataFifoNotEmpty bytesLeft
  rw [sectorSize_eq]
  cases s.dataLoaded <;> simp

/-- The raise condition in the words of spec/43_sector_reader.md R202. -/
theorem raisePending_eq (s : State) : raisePending s = frontEnabled s := by
  unfold raisePending frontEnabled
  cases s.irqFifo with
  | nil => rfl
  | cons c rest =>
    have h : ∀ e : Byte, ((c.toByte &&& 7) &&& (e &&& 7) != 0) = (c.toByte &&& e &&& 7 != 0) := by
      cases c <;> decide
    exact h s.intEnable

end Sys2Proof.Machine
end

