-- ==== Sys2Proof/Laws/Ops.lean ====
section
/-! SUPPORT. One lemma for each shared operation, saying all it can do; the provers cite these instead of unfolding. -/

namespace Sys2Proof.Machine

/-! ### The frame of an entry point -/

/-- An entry point answers a next state exactly when no fault is recorded, and then it is the effect. -/
theorem entry_eq_next_iff {s t : State} {effect : State → State} :
    entry s effect = .next t ↔ s.live ∧ effect s = t := by
  unfold entry State.live
  cases s.faulted <;> simp

theorem entry_of_live {s : State} (h : s.live) (effect : State → State) : entry s effect = .next (effect s) :=
  entry_eq_next_iff.2 ⟨h, rfl⟩

theorem entry_of_faulted {s : State} {r : Fault} (h : s.faulted = some r) (effect : State → State) :
    entry s effect = .fault r := by
  simp [entry, h]

/-! ### FIFOs -/

theorem pushBounded_of_room {α : Type} {q : List α} (h : q.length < 16) (v : α) : pushBounded q v = q ++ [v] :=
  if_pos h

theorem pushBounded_of_full {α : Type} {q : List α} (h : 16 ≤ q.length) (v : α) : pushBounded q v = q :=
  if_neg (Nat.not_lt.2 h)

/-- A bounded FIFO stays bounded (spec/10_state.md R51 point 1). -/
theorem pushBounded_length_le {α : Type} {q : List α} (h : q.length ≤ 16) (v : α) : (pushBounded q v).length ≤ 16 := by
  unfold pushBounded Config.fifoDepth
  split
  · simp; omega
  · exact h

theorem pushAllBounded_length_le {α : Type} {q : List α} (h : q.length ≤ 16) (vs : List α) :
    (pushAllBounded q vs).length ≤ 16 := by
  unfold pushAllBounded
  induction vs generalizing q with
  | nil => exact h
  | cons v vs ih => exact ih (pushBounded_length_le h v)

/-- With room for all of them, a group's bytes go in in order. -/
theorem pushAllBounded_of_room {α : Type} {q vs : List α} (h : q.length + vs.length ≤ 16) :
    pushAllBounded q vs = q ++ vs := by
  unfold pushAllBounded
  induction vs generalizing q with
  | nil => simp
  | cons v vs ih =>
    simp only [List.length_cons] at h
    rw [List.foldl_cons, pushBounded_of_room (by omega), ih (by simp; omega)]
    simp

@[simp] theorem pushBounded_nil {α : Type} (v : α) : pushBounded [] v = [v] := rfl

@[simp] theorem pushBounded_one {α : Type} (a v : α) : pushBounded [a] v = [a, v] := rfl

/-! ### The command frame -/

/-- All the frame can do (spec/41_command_interpreter.md R140): the rule runs on the cleared FIFOs; if it faults, that is
the end, and if not, the drain and the two status bits follow. -/
theorem commandFrame_cases (rule : State → State) (s : State) :
    (∃ r, (rule s.clearResponses).faulted = some r ∧ commandFrame rule s = rule s.clearResponses)
      ∨ ((rule s.clearResponses).faulted = none ∧ commandFrame rule s = (rule s.clearResponses).finishCommand) := by
  unfold commandFrame
  cases h : (rule s.clearResponses).faulted with
  | none => exact .inr ⟨rfl, rfl⟩
  | some r => exact .inl ⟨r, rfl, rfl⟩

theorem commandFrame_of_live {rule : State → State} {s : State} (h : (rule s.clearResponses).faulted = none) :
    commandFrame rule s = (rule s.clearResponses).finishCommand := by
  simp [commandFrame, h]

theorem commandFrame_of_fault {rule : State → State} {s : State} {r : Fault}
    (h : (rule s.clearResponses).faulted = some r) : commandFrame rule s = rule s.clearResponses := by
  simp [commandFrame, h]

/-- The frame discards what was pending before it (spec/60_exceptions.md R257). -/
theorem commandFrame_discards (rule : State → State) (s : State) (codes : List IrqCode) (bytes : List Byte) :
    commandFrame rule { s with irqFifo := codes, respFifo := bytes } = commandFrame rule s := rfl

/-! ### The data buffer -/

theorem advanceCursor_eq (s : State) :
    s.advanceCursor = { s with dataBufferIndex := s.dataBufferIndex + min 1 (bytesLeft s) } := by
  unfold State.advanceCursor
  rw [dataFifoNotEmpty_eq]
  by_cases h : 0 < bytesLeft s
  · simp only [h, decide_true, if_true]; rw [Nat.min_eq_left h]
  · have h0 : bytesLeft s = 0 := by omega
    simp [h0]

/-- What `read_byte()` returns, in the words of spec/43_sector_reader.md R214 and R215. -/
theorem readByteValue_eq (s : State) : readByteValue s = upcomingByte s 0 := by
  unfold readByteValue upcomingByte
  rw [dataFifoNotEmpty_eq]
  by_cases h : 0 < bytesLeft s <;> simp [h, sectorByte, dataOffset_eq]

/-- A delivered byte is a byte of the sector. -/
theorem sectorByte_of_lt (bytes : SectorBytes) {k : Nat} (h : k < 2352) : sectorByte bytes k = bytes[k] := by
  unfold sectorByte
  rw [List.getD_eq_getElem _ _ (by simpa using h)]
  simp

/-- After `n` more bytes are delivered, `n` fewer are left. -/
theorem bytesLeft_advance (s : State) (n : Nat) (o : List Output) :
    bytesLeft { s with dataBufferIndex := s.dataBufferIndex + n, trace := o } = bytesLeft s - n := by
  unfold bytesLeft
  cases s.dataLoaded <;> simp [Nat.sub_sub]

/-- `upcomingByte` counts from the cursor. -/
theorem upcomingByte_advance (s : State) (n : Nat) (o : List Output) (k : Nat) :
    upcomingByte { s with dataBufferIndex := s.dataBufferIndex + n, trace := o } k =
      if k + n < bytesLeft s then upcomingByte s (k + n) else 0 := by
  unfold upcomingByte
  rw [bytesLeft_advance]
  by_cases h : k + n < bytesLeft s
  · have h' : k < bytesLeft s - n := by omega
    simp only [h, h', if_true]
    congr 1
    omega
  · have h' : ¬ k < bytesLeft s - n := by omega
    simp only [h, h', if_false]

theorem upcomingByte_drained {s : State} {k : Nat} (h : bytesLeft s ≤ k) : upcomingByte s k = 0 :=
  if_neg (Nat.not_lt.2 h)

/-- The `k`-th of several reads in one transition: the cursor has advanced over the bytes there were. -/
theorem readByteValue_after (s : State) (k : Nat) :
    readByteValue { s with dataBufferIndex := s.dataBufferIndex + min k (bytesLeft s) } = upcomingByte s k := by
  rw [readByteValue_eq]
  refine (upcomingByte_advance s _ s.trace 0).trans ?_
  by_cases h : k < bytesLeft s
  · rw [Nat.min_eq_left h.le, Nat.zero_add, if_pos h]
  · rw [Nat.min_eq_right (by omega), if_neg (by omega), upcomingByte_drained (by omega)]

theorem advanceCursor_after (s : State) (k : Nat) :
    State.advanceCursor { s with dataBufferIndex := s.dataBufferIndex + min k (bytesLeft s) } =
      { s with dataBufferIndex := s.dataBufferIndex + min (k + 1) (bytesLeft s) } := by
  have h : bytesLeft { s with dataBufferIndex := s.dataBufferIndex + min k (bytesLeft s) } =
      bytesLeft s - min k (bytesLeft s) := bytesLeft_advance s _ s.trace
  rw [advanceCursor_eq, h]
  have e : s.dataBufferIndex + min k (bytesLeft s) + min 1 (bytesLeft s - min k (bytesLeft s)) =
      s.dataBufferIndex + min (k + 1) (bytesLeft s) := by omega
  simp only [e]

end Sys2Proof.Machine
end

