-- ==== Sys2Proof/Laws/Exec.lean ====
section
/-! SUPPORT. What `exec` is for each instruction, said once: the frame of an entry point around one effect, and for a
command the command frame around its rule. Later proofs take an instruction apart with `exec_eq_entry`,
`exec_eq_next_iff` and the equations of `effectOf` and `ruleOf`, and do not unfold `exec`. -/

namespace Sys2Proof.Machine

/-- The rule of each command (spec/42_commands.md R160 to R180); a register access has none. -/
def ruleOf : Instr → State → State
  | .getstat, s => s.pushStat .firstInt3
  | .setloc, s => setlocRule s
  | .play, s => playRule s
  | .readN, s => readRule s
  | .motorOn, s => motorOnRule s
  | .stop, s => stopRule s
  | .pause, s => pauseRule s
  | .init, s => initRule s
  | .mute, s => { s with muted := true }.pushStat .firstInt3
  | .demute, s => { s with muted := false }.pushStat .firstInt3
  | .setfilter, s => setfilterRule s
  | .setmode, s => setmodeRule s
  | .getparam, s => s.pushResponse .firstInt3 [s.stat, 0x00, 0x00]
  | .getlocP, s => playRule s
  | .getTN, s => getTNRule s
  | .getTD, s => getTDRule s
  | .seekL, s => seekLRule s
  | .test, s => testRule s
  | .getID, s => getIDRule s
  | .readS, s => readRule s
  | .cmdError _, s => pushCommandError s
  | .rdStatus _, s | .rdResponse _, s | .rdData _, s | .rdIntEnable _, s | .rdIntFlag _, s | .wrIndex _ _, s
  | .wrCommand _, s | .wrSoundMap _, s | .wrVol12 _, s | .wrVol13 _, s | .wrParam _, s | .wrIntEnable _, s
  | .wrVol22 _, s | .wrVol23 _, s | .wrRequest _, s | .wrIntAck _, s | .wrVolApply2 _, s | .wrVolApply3 _, s => s

/-- The effect of each instruction on a live state (spec/40_register_file.md; spec/41_command_interpreter.md R140). -/
def effectOf : Instr → State → State
  | .rdStatus _, s => s.emit (.regByte (statusByte s))
  | .rdResponse _, s =>
    match s.respFifo with
    | v :: rest => { s with respFifo := rest }.emit (.regByte v)
    | [] => { s with draws := s.draws + 1 }.emit (.regByte (Config.freeByte s.draws))
  | .rdData _, s => s.advanceCursor.emit (.regByte (readByteValue s))
  | .rdIntEnable _, s => s.emit (.regByte s.intEnable)
  | .rdIntFlag _, s => s.emit (.regByte (intFlagByte s))
  | .wrIndex _ value, s => { s with index := newIndex value }
  | .wrCommand op, s => commandFrame (ruleOf (decodeCommand op)) s
  | .wrParam value, s =>
    if s.paramFifo.length < Config.fifoDepth then { s with paramFifo := s.paramFifo ++ [value] }
    else s.raiseFault .paramFifoOverflow
  | .wrIntEnable value, s => { s with intEnable := value }
  | .wrRequest value, s =>
    if wantData value then
      if dataFifoNotEmpty s then s
      else { s with dataBuf := s.readBuf, readBuf := s.dataBuf, dataBufferIndex := 0, dataLoaded := true }
    else { s with dataLoaded := false, dataBufferIndex := 0 }
  | .wrIntAck value, s => if alsoClearParams value then { s.popIrq with paramFifo := [] } else s.popIrq
  | .wrSoundMap _, s | .wrVol12 _, s | .wrVol13 _, s | .wrVol22 _, s | .wrVol23 _, s | .wrVolApply2 _, s
  | .wrVolApply3 _, s => s
  | .getstat, s => commandFrame (ruleOf .getstat) s
  | .setloc, s => commandFrame (ruleOf .setloc) s
  | .play, s => commandFrame (ruleOf .play) s
  | .readN, s => commandFrame (ruleOf .readN) s
  | .motorOn, s => commandFrame (ruleOf .motorOn) s
  | .stop, s => commandFrame (ruleOf .stop) s
  | .pause, s => commandFrame (ruleOf .pause) s
  | .init, s => commandFrame (ruleOf .init) s
  | .mute, s => commandFrame (ruleOf .mute) s
  | .demute, s => commandFrame (ruleOf .demute) s
  | .setfilter, s => commandFrame (ruleOf .setfilter) s
  | .setmode, s => commandFrame (ruleOf .setmode) s
  | .getparam, s => commandFrame (ruleOf .getparam) s
  | .getlocP, s => commandFrame (ruleOf .getlocP) s
  | .getTN, s => commandFrame (ruleOf .getTN) s
  | .getTD, s => commandFrame (ruleOf .getTD) s
  | .seekL, s => commandFrame (ruleOf .seekL) s
  | .test, s => commandFrame (ruleOf .test) s
  | .getID, s => commandFrame (ruleOf .getID) s
  | .readS, s => commandFrame (ruleOf .readS) s
  | .cmdError op, s => commandFrame (ruleOf (.cmdError op)) s

/-- A command's effect is the command frame around its rule. -/
theorem effectOf_of_isCommand {i : Instr} (h : i.isCommand = true) : effectOf i = commandFrame (ruleOf i) := by
  cases i <;> first | rfl | exact absurd h (by simp [Instr.isCommand])

/-- WR_COMMAND's dispatch selects the decoded command's frame and rule (spec/41_command_interpreter.md R145). -/
theorem execWrCommand_eq (op : Byte) (s : State) :
    execWrCommand op s = entry s (commandFrame (ruleOf (decodeCommand op))) := by
  have push : ∀ (c : Prop) [Decidable c] (a b : Instr),
      entry s (commandFrame (ruleOf (if c then a else b)))
        = if c then entry s (commandFrame (ruleOf a)) else entry s (commandFrame (ruleOf b)) := by
    intro c _ a b; split <;> rfl
  unfold execWrCommand decodeCommand
  simp only [push]
  rfl

/-- Every instruction is one effect in the frame of an entry point. -/
theorem exec_eq_entry (i : Instr) (s : State) : exec i s = entry s (effectOf i) := by
  cases i
  case wrCommand op => exact execWrCommand_eq op s
  all_goals rfl

/-- All `exec` can answer with a next state. -/
theorem exec_eq_next_iff {i : Instr} {s t : State} : exec i s = .next t ↔ s.live ∧ effectOf i s = t := by
  rw [exec_eq_entry, entry_eq_next_iff]

theorem exec_of_live {s : State} (h : s.live) (i : Instr) : exec i s = .next (effectOf i s) :=
  exec_eq_next_iff.2 ⟨h, rfl⟩

end Sys2Proof.Machine
end

