-- ==== Sys2Proof/Laws/Commands.lean ====
section
/-! SUPPORT. What a command can touch, said once for all 21 commands: a property of the state that the command
operations keep is kept by every command, whether it runs to its end or faults. -/

namespace Sys2Proof.Machine

/-- The property is kept by every operation a command rule is built from. -/
structure KeptByRules (P : State → Prop) : Prop where
  pushResponse : ∀ s code bytes, P s → P (s.pushResponse code bytes)
  raiseFault : ∀ s reason, P s → P (s.raiseFault reason)
  setParams : ∀ (s : State) q, P s → P { s with paramFifo := q }
  setStat : ∀ (s : State) b, P s → P { s with stat := b }
  setSeek : ∀ (s : State) l, P s → P { s with seekSector := l }
  setRead : ∀ (s : State) l, P s → P { s with readSector := l }
  setMode : ∀ (s : State) b, P s → P { s with mode := b }
  setMuted : ∀ (s : State) b, P s → P { s with muted := b }

/-- The property is also kept by the two ends of the command frame. -/
structure KeptByCommands (P : State → Prop) : Prop extends KeptByRules P where
  clearResponses : ∀ s : State, P s → P s.clearResponses
  finishCommand : ∀ s : State, P s → P s.finishCommand

/-- All `get_param` can do: go on with the front parameter popped, or fault. -/
theorem getParam_induction {P : State → Prop} {s : State} {go : Byte → State → State}
    (front : ∀ v rest, s.paramFifo = v :: rest → P (go v { s with paramFifo := rest }))
    (empty : s.paramFifo = [] → P (s.raiseFault .paramFifoEmpty)) : P (getParam s go) := by
  cases h : s.paramFifo with
  | nil => rw [getParam_nil h]; exact empty h
  | cons v rest => rw [getParam_cons h]; exact front v rest h

/-- What every rule keeps. -/
theorem ruleOf_keeps {P : State → Prop} (k : KeptByRules P) (i : Instr) {s : State} (h : P s) : P (ruleOf i s) := by
  obtain ⟨push, fault, params, stat, seek, read, mode, muted⟩ := k
  cases i <;> simp only [ruleOf]
  case setloc =>
    unfold setlocRule
    refine getParam_induction (fun a r _ => getParam_induction (fun b r' _ => getParam_induction (fun c r'' _ => ?_)
      fun _ => ?_) fun _ => ?_) fun _ => ?_
    · exact seek _ _ (push _ _ _ (params _ _ (params _ _ (params _ _ h))))
    · exact fault _ _ (params _ _ (params _ _ h))
    · exact fault _ _ (params _ _ h)
    · exact fault _ _ h
  case play | getlocP =>
    all_goals
      unfold playRule; split
      · exact push _ _ _ (read _ _ (stat _ _ h))
      · exact fault _ _ h
  case setfilter =>
    unfold setfilterRule
    refine getParam_induction (fun a r _ => getParam_induction (fun b r' _ => ?_) fun _ => ?_) fun _ => ?_
    · exact push _ _ _ (params _ _ (params _ _ h))
    · exact fault _ _ (params _ _ h)
    · exact fault _ _ h
  case setmode =>
    refine getParam_induction (fun a r _ => ?_) fun _ => fault _ _ h
    have hm := mode _ a (push _ .firstInt3 [s.stat] (params _ r h))
    split
    · exact fault _ _ hm
    · exact hm
  case getTD => exact getParam_induction (fun a r _ => push _ _ _ (params _ _ h)) fun _ => fault _ _ h
  case test =>
    refine getParam_induction (fun a r _ => ?_) fun _ => fault _ _ h
    split <;> exact push _ _ _ (params _ _ h)
  case getID =>
    unfold getIDRule; split
    · exact push _ _ _ h
    · split <;> exact push _ _ _ (push _ _ _ h)
  case getstat | getparam | getTN | cmdError => all_goals exact push _ _ _ h
  case readN | readS => all_goals exact push _ _ _ (read _ _ (stat _ _ h))
  case motorOn => exact push _ _ _ (push _ _ _ (stat _ _ h))
  case stop => exact push _ _ _ (push _ _ _ (stat _ _ (stat _ _ h)))
  case pause => exact push _ _ _ (stat _ _ (push _ _ _ h))
  case init =>
    have hs := stat _ (setStatField 0x00 .spindleMotorOn true) (mode _ 0x00 (push s .firstInt3 [s.stat] h))
    exact push _ .secondInt2 [setStatField 0x00 .spindleMotorOn true] hs
  case mute | demute => all_goals exact push _ _ _ (muted _ _ h)
  case seekL => exact push _ _ _ (read _ _ (stat _ _ (push _ _ _ h)))
  all_goals exact h

/-- What every command keeps. -/
theorem command_keeps {P : State → Prop} (k : KeptByCommands P) (i : Instr) {s : State} (h : P s) :
    P (commandFrame (ruleOf i) s) := by
  rcases commandFrame_cases (ruleOf i) s with ⟨_, _, e⟩ | ⟨_, e⟩ <;> rw [e]
  · exact ruleOf_keeps k.toKeptByRules i (k.clearResponses _ h)
  · exact k.finishCommand _ (ruleOf_keeps k.toKeptByRules i (k.clearResponses _ h))

end Sys2Proof.Machine
end

