-- ==== Sys2Proof/Laws/Disc.lean ====
section
/-! SUPPORT. The disc queries: what an image records is its answer (spec/44_host_interface.md R231). Nothing is said of
what it does not record: that is the backend's. -/

namespace Sys2Proof.Machine

theorem discRead_of_recorded {image : DiscImage} {lba : Int} {sector : Sector}
    (h : image.sectors.lookup lba = some sector) : discRead image lba = sector := by
  simp [discRead, h]

theorem discTrackStart_of_recorded {image : DiscImage} {n : Nat} {p : Position}
    (h : image.tracks.lookup n = some p) : discTrackStart image n = p := by
  simp [discTrackStart, h]

theorem discTrackCount_of_recorded {image : DiscImage} {n : Nat} (h : image.trackCount = some n) :
    discTrackCount image = n := by
  simp [discTrackCount, h]

theorem discSize_of_recorded {image : DiscImage} {p : Position} (h : image.size = some p) : discSize image = p := by
  simp [discSize, h]

/-- With strictly rising keys, the entry listed under a key is the one looked up. -/
theorem lookup_of_mem {α β : Type} [Preorder α] [BEq α] [LawfulBEq α] {l : List (α × β)} {k : α} {v : β}
    (rising : (l.map (·.1)).Pairwise (· < ·)) (h : (k, v) ∈ l) : l.lookup k = some v := by
  induction l with
  | nil => cases h
  | cons head tail ih =>
    simp only [List.map_cons, List.pairwise_cons] at rising
    rcases List.mem_cons.1 h with rfl | hmem
    · simp
    · have hlt : head.1 < k := rising.1 k (List.mem_map.2 ⟨(k, v), hmem, rfl⟩)
      rw [List.lookup_cons, beq_eq_false_iff_ne.2 hlt.ne']
      exact ih rising.2 hmem

/-- The two clauses of the canonical form. -/
theorem DiscImage.wf_iff {image : DiscImage} :
    image.wf = true ↔
      (image.tracks.map (·.1)).Pairwise (· < ·) ∧ (image.sectors.map (·.1)).Pairwise (· < ·) := by
  simp [DiscImage.wf]

/-- In canonical form an LBA has one sector: the one listed is the one read. -/
theorem discRead_of_mem {image : DiscImage} (hwf : image.wf = true) {lba : Int} {sector : Sector}
    (h : (lba, sector) ∈ image.sectors) : discRead image lba = sector :=
  discRead_of_recorded (lookup_of_mem (DiscImage.wf_iff.1 hwf).2 h)

/-- In canonical form a track has one start: the one listed is the answer. -/
theorem discTrackStart_of_mem {image : DiscImage} (hwf : image.wf = true) {n : Nat} {p : Position}
    (h : (n, p) ∈ image.tracks) : discTrackStart image n = p :=
  discTrackStart_of_recorded (lookup_of_mem (DiscImage.wf_iff.1 hwf).1 h)

end Sys2Proof.Machine
end

