-- ==== Sys2Proof/Laws/PerInstr.lean ====
section
/-! SUPPORT. Facts about every instruction as syntax, one lemma per constructor. -/

namespace Sys2Proof.Laws

/-- The shape of an instruction's bytes: a command is one opcode byte; a register access is a key byte that decodes as
a key (below 32), alone for a read and with the written byte for a write (spec/30_encoding.md R81, R84, R90). -/
def EncodingShape.Statement (i : Instr) : Prop :=
  ((encode i).1 = .cmd ↔ i.isCommand = true)
    ∧ ((encode i).1 = .cmd → (encode i).2.length = 1)
    ∧ ((encode i).1 = .mmio →
        ((encode i).2.headD 255).toNat < 32
          ∧ (encode i).2.length = if ((encode i).2.headD 0).getLsbD 4 then 2 else 1)

theorem EncodingShape.of_read {i : Instr} {slot : Slot} {index : Index} (he : encode i = readBytes slot index)
    (hc : i.isCommand = false) : EncodingShape.Statement i := by
  have h : ∀ (slot : Slot) (index : Index),
      ((keyOf .read slot index).setWidth 8).toNat < 32 ∧ ((keyOf .read slot index).setWidth 8).getLsbD 4 = false := by
    decide
  obtain ⟨h1, h2⟩ := h slot index
  rw [EncodingShape.Statement, he, hc]
  exact ⟨⟨nofun, nofun⟩, nofun, fun _ => ⟨h1, by simp only [readBytes, List.headD_cons, h2]; rfl⟩⟩

theorem EncodingShape.of_write {i : Instr} {slot : Slot} {index : Index} {value : Byte}
    (he : encode i = writeBytes slot index value) (hc : i.isCommand = false) : EncodingShape.Statement i := by
  have h : ∀ (slot : Slot) (index : Index),
      ((keyOf .write slot index).setWidth 8).toNat < 32 ∧ ((keyOf .write slot index).setWidth 8).getLsbD 4 = true := by
    decide
  obtain ⟨h1, h2⟩ := h slot index
  rw [EncodingShape.Statement, he, hc]
  exact ⟨⟨nofun, nofun⟩, nofun, fun _ => ⟨h1, by simp only [writeBytes, List.headD_cons, h2]; rfl⟩⟩

theorem EncodingShape.of_command {i : Instr} {op : Byte} (he : encode i = (.cmd, [op])) (hc : i.isCommand = true) :
    EncodingShape.Statement i := by
  rw [EncodingShape.Statement, he, hc]
  exact ⟨⟨fun _ => rfl, fun _ => rfl⟩, fun _ => rfl, nofun⟩

theorem EncodingShape.rdStatus (index : Index) : EncodingShape.Statement (.rdStatus index) :=
  EncodingShape.of_read rfl rfl

theorem EncodingShape.rdResponse (index : Index) : EncodingShape.Statement (.rdResponse index) :=
  EncodingShape.of_read rfl rfl

theorem EncodingShape.rdData (index : Index) : EncodingShape.Statement (.rdData index) :=
  EncodingShape.of_read rfl rfl

theorem EncodingShape.rdIntEnable (index : Index) : EncodingShape.Statement (.rdIntEnable index) :=
  EncodingShape.of_read rfl rfl

theorem EncodingShape.rdIntFlag (index : Index) : EncodingShape.Statement (.rdIntFlag index) :=
  EncodingShape.of_read rfl rfl

theorem EncodingShape.wrIndex (index : Index) (value : Byte) : EncodingShape.Statement (.wrIndex index value) :=
  EncodingShape.of_write rfl rfl

theorem EncodingShape.wrCommand (value : Byte) : EncodingShape.Statement (.wrCommand value) :=
  EncodingShape.of_write rfl rfl

theorem EncodingShape.wrSoundMap (value : Byte) : EncodingShape.Statement (.wrSoundMap value) :=
  EncodingShape.of_write rfl rfl

theorem EncodingShape.wrVol12 (value : Byte) : EncodingShape.Statement (.wrVol12 value) :=
  EncodingShape.of_write rfl rfl

theorem EncodingShape.wrVol13 (value : Byte) : EncodingShape.Statement (.wrVol13 value) :=
  EncodingShape.of_write rfl rfl

theorem EncodingShape.wrParam (value : Byte) : EncodingShape.Statement (.wrParam value) :=
  EncodingShape.of_write rfl rfl

theorem EncodingShape.wrIntEnable (value : Byte) : EncodingShape.Statement (.wrIntEnable value) :=
  EncodingShape.of_write rfl rfl

theorem EncodingShape.wrVol22 (value : Byte) : EncodingShape.Statement (.wrVol22 value) :=
  EncodingShape.of_write rfl rfl

theorem EncodingShape.wrVol23 (value : Byte) : EncodingShape.Statement (.wrVol23 value) :=
  EncodingShape.of_write rfl rfl

theorem EncodingShape.wrRequest (value : Byte) : EncodingShape.Statement (.wrRequest value) :=
  EncodingShape.of_write rfl rfl

theorem EncodingShape.wrIntAck (value : Byte) : EncodingShape.Statement (.wrIntAck value) :=
  EncodingShape.of_write rfl rfl

theorem EncodingShape.wrVolApply2 (value : Byte) : EncodingShape.Statement (.wrVolApply2 value) :=
  EncodingShape.of_write rfl rfl

theorem EncodingShape.wrVolApply3 (value : Byte) : EncodingShape.Statement (.wrVolApply3 value) :=
  EncodingShape.of_write rfl rfl

theorem EncodingShape.getstat : EncodingShape.Statement .getstat :=
  EncodingShape.of_command rfl rfl

theorem EncodingShape.setloc : EncodingShape.Statement .setloc :=
  EncodingShape.of_command rfl rfl

theorem EncodingShape.play : EncodingShape.Statement .play :=
  EncodingShape.of_command rfl rfl

theorem EncodingShape.readN : EncodingShape.Statement .readN :=
  EncodingShape.of_command rfl rfl

theorem EncodingShape.motorOn : EncodingShape.Statement .motorOn :=
  EncodingShape.of_command rfl rfl

theorem EncodingShape.stop : EncodingShape.Statement .stop :=
  EncodingShape.of_command rfl rfl

theorem EncodingShape.pause : EncodingShape.Statement .pause :=
  EncodingShape.of_command rfl rfl

theorem EncodingShape.init : EncodingShape.Statement .init :=
  EncodingShape.of_command rfl rfl

theorem EncodingShape.mute : EncodingShape.Statement .mute :=
  EncodingShape.of_command rfl rfl

theorem EncodingShape.demute : EncodingShape.Statement .demute :=
  EncodingShape.of_command rfl rfl

theorem EncodingShape.setfilter : EncodingShape.Statement .setfilter :=
  EncodingShape.of_command rfl rfl

theorem EncodingShape.setmode : EncodingShape.Statement .setmode :=
  EncodingShape.of_command rfl rfl

theorem EncodingShape.getparam : EncodingShape.Statement .getparam :=
  EncodingShape.of_command rfl rfl

theorem EncodingShape.getlocP : EncodingShape.Statement .getlocP :=
  EncodingShape.of_command rfl rfl

theorem EncodingShape.getTN : EncodingShape.Statement .getTN :=
  EncodingShape.of_command rfl rfl

theorem EncodingShape.getTD : EncodingShape.Statement .getTD :=
  EncodingShape.of_command rfl rfl

theorem EncodingShape.seekL : EncodingShape.Statement .seekL :=
  EncodingShape.of_command rfl rfl

theorem EncodingShape.test : EncodingShape.Statement .test :=
  EncodingShape.of_command rfl rfl

theorem EncodingShape.getID : EncodingShape.Statement .getID :=
  EncodingShape.of_command rfl rfl

theorem EncodingShape.readS : EncodingShape.Statement .readS :=
  EncodingShape.of_command rfl rfl

theorem EncodingShape.cmdError (op : Byte) : EncodingShape.Statement (.cmdError op) :=
  EncodingShape.of_command rfl rfl

end Sys2Proof.Laws
end

