-- ==== Sys2Proof/Laws/SectorReader.lean ====
section
/-! SUPPORT. What the parts of `step()` can do (spec/43_sector_reader.md R201 to R211), each said once. -/

namespace Sys2Proof.Machine

/-- All that R201 and R202 do: the busy bit clears and the output trace grows. -/
theorem raiseStep_eq (s : State) :
    s.raiseStep = { s with transmitBusy := false, trace := s.trace ++ stepOutput s } := by
  have h : raisePending { s with transmitBusy := false } = frontEnabled s := raisePending_eq _
  unfold State.raiseStep stepOutput
  dsimp only
  rw [h]
  cases frontEnabled s <;> simp [State.emit]

/-- Stopped or Seeking: the cadence does nothing (R212). -/
theorem cadenceStep_idle {s : State} (hr : isReading s.stat = false) (hp : isPlaying s.stat = false) :
    s.cadenceStep = s := by
  simp [State.cadenceStep, hr, hp]

/-- Reading or Playing: the counter falls, and its expiry reloads it and fetches (R203, R204). -/
theorem cadenceStep_running {s : State} (h : isReading s.stat = true ∨ isPlaying s.stat = true) :
    s.cadenceStep =
      if s.stepsUntilReadSect - 1 = 0 then { s with stepsUntilReadSect := Config.readSectorDelaySteps }.fetchSector
      else { s with stepsUntilReadSect := s.stepsUntilReadSect - 1 } := by
  unfold State.cadenceStep
  rcases h with h | h <;> simp only [h, Bool.true_or, Bool.or_true, if_true]

/-- An Invalid sector: only the LBA advances (R206). -/
theorem fetchSector_invalid {s : State} (h : (discRead s.disc s.readSector).kind = .invalid) :
    s.fetchSector = { s with readSector := s.readSector + 1 } := by
  unfold State.fetchSector
  simp only [h]

/-- Any other sector is staged (R207); the response is that of `dataReady`. -/
theorem fetchSector_staged {s : State} (h : (discRead s.disc s.readSector).kind ≠ .invalid) :
    s.fetchSector =
      { s with readSector := s.readSector + 1, readBuf := (discRead s.disc s.readSector).bytes }.dataReady
        (discRead s.disc s.readSector).kind := by
  unfold State.fetchSector
  cases hk : (discRead s.disc s.readSector).kind <;> simp_all

/-- All that data-ready can do (R210, R211): nothing, or one INT1 group. -/
theorem dataReady_cases (s : State) (kind : SectorKind) :
    (isReading s.stat = true ∧ kind = .data ∧ s.dataReady kind = s.pushStat .secondInt1)
      ∨ (¬(isReading s.stat = true ∧ kind = .data) ∧ s.dataReady kind = s) := by
  unfold State.dataReady
  split
  next h => exact .inl ⟨h.1, h.2, rfl⟩
  next h => exact .inr ⟨h, rfl⟩

/-- What `step()` can change, and nothing else: the busy bit, the trace, and by the cadence the counter, the LBA, the
staged sector and the two response FIFOs. -/
theorem cadenceStep_frame (s : State) :
    ∃ irqs resps count lba staged,
      s.cadenceStep =
        { s with
          irqFifo := irqs, respFifo := resps, stepsUntilReadSect := count, readSector := lba, readBuf := staged } := by
  by_cases h : isReading s.stat = true ∨ isPlaying s.stat = true
  · rw [cadenceStep_running h]
    split
    · by_cases hk : (discRead s.disc s.readSector).kind = .invalid
      · rw [fetchSector_invalid (by exact hk)]
        exact ⟨_, _, _, _, _, rfl⟩
      · rw [fetchSector_staged (by exact hk)]
        obtain ⟨-, -, e⟩ | ⟨-, e⟩ := dataReady_cases
          { s with
            stepsUntilReadSect := Config.readSectorDelaySteps, readSector := s.readSector + 1,
            readBuf := (discRead s.disc s.readSector).bytes }
          (discRead s.disc s.readSector).kind
        · exact ⟨_, _, _, _, _, e⟩
        · exact ⟨_, _, _, _, _, e⟩
    · exact ⟨_, _, _, _, _, rfl⟩
  · simp only [not_or, Bool.not_eq_true] at h
    rw [cadenceStep_idle h.1 h.2]
    exact ⟨_, _, _, _, _, rfl⟩

end Sys2Proof.Machine
end

