-- ==== Sys2Proof/Tests/Slice0.lean ====
section
/-! SUPPORT. The model's own tests. Expected values come from spec/95_test_vectors.md (the vector is named) or from the
encodings of spec/30_encoding.md. After them stand the witnesses: for each statement with hypotheses, concrete states
and operands that meet them. -/

namespace Sys2Proof.Tests

open Sys2Proof Sys2Proof.Machine

/-! ### Helpers -/

/-- What a view shows of the next state, if there is one. -/
def after {α : Type} (r : Result) (view : State → α) : Option α :=
  match r with
  | .next t => some (view t)
  | .fault _ => none
  | .refused _ => none

/-- S0 of the test vectors. -/
abbrev s0 : State := State.reset

/-- D1's recorded answers, without sectors. -/
def d1 : DiscImage :=
  { isEmpty := false, trackCount := some 1, size := some ⟨0, 4, 0⟩, tracks := [(1, ⟨0, 2, 0⟩), (10, ⟨0, 0, 0⟩)],
    sectors := [] }

/-- E0's recorded answers, without sectors. -/
def e0 : DiscImage :=
  { isEmpty := true, trackCount := some 0, size := some ⟨0, 0, 0⟩, tracks := [], sectors := [] }

/-- S1: `insert D1` closes the shell. -/
def s1 : State := { s0 with stat := 0x00, disc := d1 }

/-- S2: `insert E0`. -/
def s2 : State := { s0 with stat := 0x00, disc := e0 }

/-- S1 with these parameters pending. -/
def s1With (params : List Byte) : State := { s1 with paramFifo := params }

/-- The two FIFOs a command fills. -/
def responses (s : State) : List IrqCode × List Byte := (s.irqFifo, s.respFifo)

/-- A sector with one byte set. -/
def sectorWith (k : Fin 2352) (b : Byte) (kind : SectorKind) : Sector :=
  { bytes := (Vector.replicate 2352 0).set k b, kind := kind }

/-- An image with one recorded sector, at LBA 16. -/
def imageWith (sector : Sector) : DiscImage := { d1 with sectors := [(16, sector)] }

/-- The last step before a fetch of LBA 16. -/
def aboutToFetch (stat : Byte) (kind : SectorKind) : State :=
  { s1 with
    stat := stat, stepsUntilReadSect := 1, readSector := 16, irqFifo := [.firstInt3], respFifo := [0x20],
    disc := imageWith (sectorWith 24 0x28 kind) }

/-- A loaded data buffer with 0x28 at byte 24 and the cursor at `k`. -/
def loaded (mode : Byte) (k : Nat) : State :=
  { s1 with dataBuf := (sectorWith 24 0x28 .data).bytes, dataLoaded := true, mode := mode, dataBufferIndex := k }

/-! ### WellFormed: each check refuses an ill-formed term -/

theorem test_wf_refuses_odd_int_enable_read : (Instr.rdIntEnable 1).wf = false ∧ (Instr.rdIntEnable 2).wf = true := by
  decide

theorem test_wf_refuses_even_int_flag_read : (Instr.rdIntFlag 0).wf = false ∧ (Instr.rdIntFlag 3).wf = true := by
  decide

theorem test_wf_refuses_assigned_command_error :
    (Instr.cmdError 0x01).wf = false ∧ (Instr.cmdError 0x1B).wf = false ∧ (Instr.cmdError 0x1C).wf = true := by
  decide

theorem test_assigned_opcodes_are_the_twenty : assignedOpcodes.length = 20 ∧ assignedOpcodes.Nodup := by decide

/-! ### Decoding: words written out from R82, R83 and R85 -/

theorem test_decode_reads :
    decode .mmio [0b00000001] = .ok (.rdStatus 1, [])
      ∧ decode .mmio [0b00000111] = .ok (.rdResponse 3, [])
      ∧ decode .mmio [0b00001000] = .ok (.rdData 0, [])
      ∧ decode .mmio [0b00001100] = .ok (.rdIntEnable 0, [])
      ∧ decode .mmio [0b00001110] = .ok (.rdIntEnable 2, [])
      ∧ decode .mmio [0b00001101] = .ok (.rdIntFlag 1, []) := by decide

theorem test_decode_writes_slot0_slot1 :
    decode .mmio [0b00010001, 0x02] = .ok (.wrIndex 1 0x02, [])
      ∧ decode .mmio [0b00010100, 0x09] = .ok (.wrCommand 0x09, [])
      ∧ decode .mmio [0b00010101, 0xA5] = .ok (.wrSoundMap 0xA5, [])
      ∧ decode .mmio [0b00010110, 0xA5] = .ok (.wrVol12 0xA5, [])
      ∧ decode .mmio [0b00010111, 0xA5] = .ok (.wrVol13 0xA5, []) := by decide

theorem test_decode_writes_slot2_slot3 :
    decode .mmio [0b00011000, 0x20] = .ok (.wrParam 0x20, [])
      ∧ decode .mmio [0b00011001, 0x1F] = .ok (.wrIntEnable 0x1F, [])
      ∧ decode .mmio [0b00011010, 0xA5] = .ok (.wrVol22 0xA5, [])
      ∧ decode .mmio [0b00011011, 0xA5] = .ok (.wrVol23 0xA5, [])
      ∧ decode .mmio [0b00011100, 0x80] = .ok (.wrRequest 0x80, [])
      ∧ decode .mmio [0b00011101, 0x07] = .ok (.wrIntAck 0x07, [])
      ∧ decode .mmio [0b00011110, 0xA5] = .ok (.wrVolApply2 0xA5, [])
      ∧ decode .mmio [0b00011111, 0x47] = .ok (.wrVolApply3 0x47, []) := by decide

theorem test_decode_commands_low :
    decode .cmd [0x01] = .ok (.getstat, []) ∧ decode .cmd [0x02] = .ok (.setloc, [])
      ∧ decode .cmd [0x03] = .ok (.play, []) ∧ decode .cmd [0x06] = .ok (.readN, [])
      ∧ decode .cmd [0x07] = .ok (.motorOn, []) ∧ decode .cmd [0x08] = .ok (.stop, [])
      ∧ decode .cmd [0x09] = .ok (.pause, []) ∧ decode .cmd [0x0A] = .ok (.init, [])
      ∧ decode .cmd [0x0B] = .ok (.mute, []) ∧ decode .cmd [0x0C] = .ok (.demute, []) := by decide

theorem test_decode_commands_high :
    decode .cmd [0x0D] = .ok (.setfilter, []) ∧ decode .cmd [0x0E] = .ok (.setmode, [])
      ∧ decode .cmd [0x0F] = .ok (.getparam, []) ∧ decode .cmd [0x11] = .ok (.getlocP, [])
      ∧ decode .cmd [0x13] = .ok (.getTN, []) ∧ decode .cmd [0x14] = .ok (.getTD, [])
      ∧ decode .cmd [0x15] = .ok (.seekL, []) ∧ decode .cmd [0x19] = .ok (.test, [])
      ∧ decode .cmd [0x1A] = .ok (.getID, []) ∧ decode .cmd [0x1B] = .ok (.readS, []) := by decide

theorem test_decode_command_error :
    [0x00, 0x04, 0x05, 0x10, 0x12, 0x16, 0x17, 0x18, 0x1C, 0x1E, 0x80, 0xFF].map (fun op => decode .cmd [op]) =
      [0x00, 0x04, 0x05, 0x10, 0x12, 0x16, 0x17, 0x18, 0x1C, 0x1E, 0x80, 0xFF].map (fun op => .ok (.cmdError op, [])) := by
  decide

/-- The rest of the bytes comes back; what is no word is rejected by name. -/
theorem test_decode_rest_and_rejects :
    decode .mmio [0b00000000, 0x55] = .ok (.rdStatus 0, [0x55])
      ∧ decode .mmio [0b00011000, 0x20, 0x55] = .ok (.wrParam 0x20, [0x55])
      ∧ decode .mmio [0b11100000] = .error .keyTooWide
      ∧ decode .mmio [0b00010000] = .error .noValueByte
      ∧ decode .mmio [] = .error .noBytes := by decide

/-- The table's numbering: a whole byte below 32 that is an assigned opcode is the command, any other is the key; more
than 8 bits are a key and its written byte (log 13). -/
theorem test_table_words :
    decodeTableWord 8 0x1A = some .getID ∧ decodeTableWord 5 0x1A = some (.wrVol22 0x00)
      ∧ decodeTableWord 8 0x14 = some .getTD ∧ decodeTableWord 5 0x14 = some (.wrCommand 0x00)
      ∧ decodeTableWord 16 0x1A14 = some (.wrCommand 0x1A) ∧ decodeTableWord 8 0x18 = some (.wrParam 0x00)
      ∧ decodeTableWord 8 0x20 = some (.cmdError 0x20) ∧ decodeTableWord 16 0x0020 = none := by decide

theorem test_fetch_word_runs_the_command :
    after (step (s0.withFetchWord 8 0x19)) (fun t => (t.irqFifo, t.respFifo, t.pending)) =
      some ([.errorInt5], [0x11, 0x40], []) := by decide

theorem test_fetch_word_runs_the_cell :
    after (step (s0.withFetchWord 16 0xFE11)) (fun t => (t.index, t.pending)) = some (2, []) := by decide

/-! ### Register file (section 2.1) -/

/-- T-M1. -/
theorem test_rdStatus_reset : after (exec (.rdStatus 0) s0) (·.trace) = some [.regByte 0x18] := by decide

/-- T-M13: 16 parameters clear bits 3 and 4. -/
theorem test_rdStatus_full_params :
    after (exec (.rdStatus 0) { s0 with paramFifo := List.replicate 16 0 }) (·.trace) = some [.regByte 0x00] := by
  decide

/-- T-M5. -/
theorem test_rdResponse_pops :
    after (exec (.rdResponse 0) { s0 with respFifo := [0x02] }) (fun t => (t.trace, t.respFifo)) =
      some ([.regByte 0x02], []) := by decide

/-- T-M4: some byte, and the status is still 0x18. -/
theorem test_rdResponse_empty :
    after (exec (.rdResponse 0) s0) (fun t => (statusByte t, t.draws)) = some (0x18, 1) := by decide

/-- T-M6. -/
theorem test_rdData_not_loaded :
    after (exec (.rdData 0) s0) (fun t => (t.trace, t.dataBufferIndex)) = some ([.regByte 0x00], 0) := by decide

/-- T-F1, and T-F3's offset 12: in whole-sector mode the byte at 24 is the one at cursor 12. -/
theorem test_rdData_loaded :
    after (exec (.rdData 0) (loaded 0x00 0)) (fun t => (t.trace, t.dataBufferIndex)) = some ([.regByte 0x28], 1)
      ∧ after (exec (.rdData 0) (loaded 0x20 12)) (fun t => (t.trace, t.dataBufferIndex)) =
        some ([.regByte 0x28], 13) := by decide

/-- T-M10. -/
theorem test_rdIntEnable_whole :
    after (exec (.rdIntEnable 2) { s0 with intEnable := 0x1F }) (·.trace) = some [.regByte 0x1F] := by decide

/-- T-M8 and T-M7. -/
theorem test_rdIntFlag :
    after (exec (.rdIntFlag 1) { s0 with irqFifo := [.firstInt3, .secondInt2] }) (fun t => (t.trace, t.irqFifo)) =
        some ([.regByte 0xE3], [.firstInt3, .secondInt2])
      ∧ after (exec (.rdIntFlag 1) s0) (·.trace) = some [.regByte 0xE0] := by decide

/-- T-M2: 0xFE selects bank 2, and the status reads 0x1A. -/
theorem test_wrIndex : after (exec (.wrIndex 0 0xFE) s0) (fun t => (t.index, statusByte t)) = some (2, 0x1A) := by
  decide

/-- Scenario 4: opcode 0xFF. -/
theorem test_wrCommand_error :
    after (exec (.wrCommand 0xFF) s1) responses = some ([.errorInt5], [0x11, 0x40]) := by decide

/-- T-K1: a command leaves status 0xB8. -/
theorem test_wrCommand_status : after (exec (.wrCommand 0x01) s1) statusByte = some 0xB8 := by decide

/-- T-M16 to T-M18, T-M24, T-M25: the audio cells change nothing. -/
theorem test_audio_cells :
    [Instr.wrSoundMap 0x01, .wrVol12 0x1A, .wrVol13 0x1A, .wrVol22 0x20, .wrVol23 0x20, .wrVolApply2 0x80,
      .wrVolApply3 0x47].map (fun i => after (exec i { s1 with irqFifo := [.firstInt3], paramFifo := [0x05] })
        (fun t => (t.irqFifo, t.paramFifo, t.intEnable, t.dataLoaded, t.transmitBusy))) =
      List.replicate 7 (some ([.firstInt3], [0x05], 0x00, false, false)) := by decide

/-- T-M12. -/
theorem test_wrParam_pushes :
    after (exec (.wrParam 0x20) s0) (fun t => (t.paramFifo, statusByte t)) = some ([0x20], 0x10) := by decide

/-- T-M14. -/
theorem test_wrParam_overflow :
    after (exec (.wrParam 0x00) { s0 with paramFifo := List.replicate 16 0 }) (fun t => (t.faulted, t.paramFifo.length)) =
      some (some .paramFifoOverflow, 16) := by decide

/-- T-M15. -/
theorem test_wrIntEnable :
    after (exec (.wrIntEnable 0x20) s0) (fun t => (t.intEnable, t.paramFifo)) = some (0x20, []) := by decide

/-- T-M26. -/
theorem test_wrRequest_loads :
    after (exec (.wrRequest 0x80) s0) (fun t => (t.dataLoaded, statusByte t)) = some (true, 0x58) := by decide

/-- T-M27 and T-M28. -/
theorem test_wrRequest_keeps_and_clears :
    after (exec (.wrRequest 0x80) (loaded 0x00 5)) (fun t => (t.dataLoaded, t.dataBufferIndex)) = some (true, 5)
      ∧ after (exec (.wrRequest 0x00) (loaded 0x00 5)) (fun t => (t.dataLoaded, t.dataBufferIndex)) = some (false, 0) := by
  decide

/-- T-M22. -/
theorem test_wrIntAck_keeps_params :
    after (exec (.wrIntAck 0x07) { s0 with irqFifo := [.firstInt3], paramFifo := [0x20] })
      (fun t => (t.irqFifo, t.paramFifo)) = some ([], [0x20]) := by decide

/-- T-M20. -/
theorem test_wrIntAck_clears_params :
    after (exec (.wrIntAck 0x47) { s0 with irqFifo := [.firstInt3, .secondInt2], paramFifo := [0x01, 0x02] })
      (fun t => (t.irqFifo, t.paramFifo)) = some ([.secondInt2], []) := by decide

/-! ### Commands (section 2.3) -/

/-- T-C46. -/
theorem test_getstat : after (exec .getstat { s1 with stat := 0x22 }) responses = some ([.firstInt3], [0x22]) := by
  decide

/-- T-C3. -/
theorem test_setloc :
    after (exec .setloc (s1With [0x00, 0x02, 0x16, 0x55])) (fun t => (responses t, t.seekSector, t.paramFifo)) =
      some (([.firstInt3], [0x00]), 16, []) := by decide

/-- T-C4; T-A3 is the other end: an MSF below 00:02:00 is negative. -/
theorem test_setloc_fault_and_negative :
    after (exec .setloc (s1With [0x00, 0x02])) (·.faulted) = some (some .paramFifoEmpty)
      ∧ after (exec .setloc (s1With [0x00, 0x00, 0x10])) (·.seekSector) = some (-140) := by decide

/-- T-C5. -/
theorem test_play :
    after (exec .play { s1 with seekSector := 16 }) (fun t => (responses t, t.stat, t.readSector)) =
      some (([.firstInt3], [0x80]), 0x80, 16) := by decide

/-- T-C6. -/
theorem test_play_params : after (exec .play (s1With [0x01])) (·.faulted) = some (some .playWithParams) := by decide

/-- T-C9. -/
theorem test_readN :
    after (exec .readN { s1 with seekSector := 16 }) (fun t => (responses t, t.stat, t.readSector)) =
      some (([.firstInt3], [0x20]), 0x20, 16) := by decide

/-- T-C11. -/
theorem test_motorOn :
    after (exec .motorOn s1) (fun t => (responses t, t.stat)) =
      some (([.firstInt3, .secondInt2], [0x02, 0x02]), 0x02) := by decide

/-- T-C12. -/
theorem test_stop :
    after (exec .stop { s1 with stat := 0x22 }) (fun t => (responses t, t.stat)) =
      some (([.firstInt3, .secondInt2], [0x00, 0x00]), 0x00) := by decide

/-- T-C13. -/
theorem test_pause :
    after (exec .pause { s1 with stat := 0x22 }) (fun t => (responses t, t.stat)) =
      some (([.firstInt3, .secondInt2], [0x22, 0x02]), 0x02) := by decide

/-- T-C15. -/
theorem test_init_reset :
    after (exec .init s0) (fun t => (responses t, t.stat, t.mode)) =
      some (([.firstInt3, .secondInt2], [0x10, 0x02]), 0x02, 0x00) := by decide

/-- T-C17 with T-C18's interrupt enables. -/
theorem test_init_playing :
    after (exec .init { s1 with stat := 0x82, mode := 0x20, intEnable := 0x05 })
      (fun t => (responses t, t.stat, t.mode, t.intEnable)) =
      some (([.firstInt3, .secondInt2], [0x82, 0x02]), 0x02, 0x00, 0x05) := by decide

/-- T-C19. -/
theorem test_mute : after (exec .mute s1) (fun t => (responses t, t.muted)) = some (([.firstInt3], [0x00]), true) := by
  decide

/-- T-C20. -/
theorem test_demute :
    after (exec .demute { s1 with muted := true }) (fun t => (responses t, t.muted)) =
      some (([.firstInt3], [0x00]), false) := by decide

/-- T-C22. -/
theorem test_setfilter :
    after (exec .setfilter (s1With [0x10, 0x63])) responses = some ([.firstInt3], [0x00, 0x16, 0x99]) := by decide

/-- T-C23. -/
theorem test_setfilter_wraps :
    after (exec .setfilter (s1With [0xFF, 0x00])) responses = some ([.firstInt3], [0x00, 0x95, 0x00]) := by decide

/-- T-C26. -/
theorem test_setmode :
    after (exec .setmode (s1With [0xEF])) (fun t => (responses t, t.mode, t.faulted)) =
      some (([.firstInt3], [0x00]), 0xEF, none) := by decide

/-- T-C27. -/
theorem test_setmode_bit4 : after (exec .setmode (s1With [0x10])) (·.faulted) = some (some .setmodeBit4) := by decide

/-- T-C29. -/
theorem test_getparam : after (exec .getparam s1) responses = some ([.firstInt3], [0x00, 0x00, 0x00]) := by decide

/-- T-C7 and T-C8. -/
theorem test_getlocP :
    after (exec .getlocP s1) (fun t => (responses t, t.stat)) = some (([.firstInt3], [0x80]), 0x80)
      ∧ after (exec .getlocP (s1With [0x00])) (·.faulted) = some (some .playWithParams) := by decide

/-- T-C37, and the 12-track disc of R174. -/
theorem test_getTN :
    after (exec .getTN s1) responses = some ([.firstInt3], [0x00, 0x01, 0x01])
      ∧ after (exec .getTN { s1 with disc := { d1 with trackCount := some 12 } }) responses =
        some ([.firstInt3], [0x00, 0x01, 0x12]) := by decide

/-- T-C38 and T-C39. -/
theorem test_getTD :
    after (exec .getTD (s1With [0x01])) responses = some ([.firstInt3], [0x00, 0x00, 0x02])
      ∧ after (exec .getTD (s1With [0x00])) responses = some ([.firstInt3], [0x00, 0x00, 0x04]) := by decide

/-- T-C40: the BCD byte 0x10 is track 10. -/
theorem test_getTD_bcd : after (exec .getTD (s1With [0x10])) responses = some ([.firstInt3], [0x00, 0x00, 0x00]) := by
  decide

/-- T-C43, with the seek sector of T-C42. -/
theorem test_seekL :
    after (exec .seekL { s1 with stat := 0x02, seekSector := 16 }) (fun t => (responses t, t.stat, t.readSector)) =
      some (([.firstInt3, .secondInt2], [0x02, 0x42]), 0x42, 16) := by decide

/-- T-C30 and T-C31. -/
theorem test_test :
    after (exec .test (s1With [0x20])) responses = some ([.firstInt3], [0x94, 0x09, 0x19, 0xC0])
      ∧ after (exec .test (s1With [0x21])) responses = some ([.errorInt5], [0x11, 0x40]) := by decide

/-- T-C33. -/
theorem test_getID_disc :
    after (exec .getID s1) responses =
      some ([.firstInt3, .secondInt2], [0x00, 0x02, 0x00, 0x20, 0x00, 0x53, 0x43, 0x45, 0x41]) := by decide

/-- T-C34 and T-C35. -/
theorem test_getID_shell_and_no_disc :
    after (exec .getID s0) responses = some ([.errorInt5], [0x11, 0x80])
      ∧ after (exec .getID s2) responses =
        some ([.firstInt3, .errorInt5], [0x00, 0x08, 0x40, 0x00, 0x00, 0x00, 0x00, 0x00, 0x00]) := by decide

/-- T-C44. -/
theorem test_readS :
    after (exec .readS { s1 with seekSector := 16 }) (fun t => (responses t, t.stat, t.readSector)) =
      some (([.firstInt3], [0x20]), 0x20, 16) := by decide

/-- T-K6: an unassigned opcode drains the parameters. -/
theorem test_cmdError :
    after (exec (.cmdError 0x55) (s1With [0x09])) (fun t => (responses t, t.paramFifo)) =
      some (([.errorInt5], [0x11, 0x40]), []) := by decide

/-! ### Step, cadence and data path (sections 2.5 to 2.8) -/

/-- T-S1 to T-S13: whether the front code raises. -/
theorem test_raise_table :
    ([(some .firstInt3, 0x00), (some .firstInt3, 0x01), (some .firstInt3, 0x02), (some .firstInt3, 0x04),
      (some .secondInt2, 0x01), (some .secondInt2, 0x02), (some .secondInt1, 0x01), (some .secondInt1, 0x06),
      (some .errorInt5, 0x04), (some .errorInt5, 0x01), (some .errorInt5, 0x02), (some .firstInt3, 0xF8),
      (none, 0x07)] : List (Option IrqCode × Byte)).map
        (fun p => raisePending { s1 with irqFifo := p.1.toList, intEnable := p.2 }) =
      [false, true, true, false, false, true, true, false, true, true, false, false, false] := by decide

/-- T-R2: the step that expires the counter fetches; INT1 stands behind INT3; the LBA advances. -/
theorem test_fetch_data :
    after (execStep (aboutToFetch 0x20 .data)) (fun t => (responses t, t.readSector, t.trace)) =
      some (([.firstInt3, .secondInt1], [0x20, 0x20]), 17, []) := by decide

/-- T-R7 (Playing) and T-R9 (Audio): no INT1. -/
theorem test_fetch_without_int1 :
    after (execStep (aboutToFetch 0x80 .data)) (fun t => (t.irqFifo, t.readSector)) = some ([.firstInt3], 17)
      ∧ after (execStep (aboutToFetch 0x20 .audio)) (fun t => (t.irqFifo, t.readSector)) = some ([.firstInt3], 17)
      ∧ after (execStep (aboutToFetch 0x20 .invalid)) (fun t => (t.irqFifo, t.readSector)) = some ([.firstInt3], 17) := by
  decide

/-- T-O2 and T-O3: the code and the byte are dropped each on its own. -/
theorem test_fetch_overflow :
    after (execStep { aboutToFetch 0x20 .data with
        irqFifo := List.replicate 16 .secondInt1, respFifo := List.replicate 16 0x20 })
        (fun t => (t.irqFifo.length, t.respFifo.length)) = some (16, 16)
      ∧ after (execStep { aboutToFetch 0x20 .data with
          irqFifo := List.replicate 15 .secondInt1, respFifo := List.replicate 16 0x20 })
          (fun t => (t.irqFifo.length, t.respFifo.length)) = some (16, 16) := by decide

/-- T-F10 and T-F11: the data bit follows the mode at once. -/
theorem test_data_bit_follows_mode :
    dataFifoNotEmpty (loaded 0x20 2100) = true ∧ dataFifoNotEmpty (loaded 0x00 2100) = false
      ∧ dataFifoNotEmpty (loaded 0x00 2048) = false ∧ dataFifoNotEmpty (loaded 0x20 2048) = true := by decide

/-- T-R2: the fetched sector is staged whole. -/
theorem test_fetch_stages_the_sector :
    after (execStep (aboutToFetch 0x20 .data)) (fun t => (sectorByte t.readBuf 24, sectorByte t.readBuf 25)) =
      some (0x28, 0x00) := by decide

/-- T-F5's byte order, on the word's four bytes. -/
theorem test_word_order : wordOfBytes 0x28 0x29 0x2A 0x2B = 0x2B2A2928 := by decide

/-- T-H1. -/
theorem test_insert :
    after (execInsert d1 s0) (fun t => (t.stat, t.disc.isEmpty, statusByte t)) = some (0x00, false, 0x18) := by decide

/-- T-A1, T-A2, T-A4, T-A5. -/
theorem test_bcd :
    [0x00, 0x09, 0x10, 0x16, 0x59, 0x74, 0x99, 0x1A, 0xA0, 0xFF].map bcdToDec = [0, 9, 10, 16, 59, 74, 99, 20, 100, 165]
      ∧ [0, 9, 10, 16, 99, 100, 165, 255].map natToBcd = [0x00, 0x09, 0x10, 0x16, 0x99, 0xA0, 0x05, 0x95] := by decide

/-- T-A10 to T-A17. -/
theorem test_msf :
    msfToLba 0 2 0 = 0 ∧ msfToLba 0 0 0 = -150 ∧ msfToLba 0 2 16 = 16 ∧ msfToLba 1 0 0 = 4350
      ∧ msfToLba 74 59 74 = 337349 ∧ lbaToMsf 0 = ⟨0, 2, 0⟩ ∧ lbaToMsf (-150) = ⟨0, 0, 0⟩
      ∧ lbaToMsf 337349 = ⟨74, 59, 74⟩ := by decide

/-! ### Witnesses: states and operands that meet the hypotheses of the statements, clause by clause -/

/-- The hypothesis `live` alone: every statement that assumes nothing else. -/
theorem witness_live : s0.live ∧ s1.live ∧ s2.live := ⟨rfl, rfl, rfl⟩

/-- DecodedCellIsTheOneRowThatMatches: a row of the list. -/
theorem witness_cell_row : (⟨0b10100, 0b11111, "WR_COMMAND"⟩ : CellRow) ∈ cellRows := by decide

/-- DecodeOfEncodeIsTheInstruction, at the edges of the three restricted rows. -/
theorem witness_well_formed :
    (Instr.rdIntEnable 2).wf = true ∧ (Instr.rdIntFlag 1).wf = true ∧ (Instr.cmdError 0x00).wf = true
      ∧ (Instr.cmdError 0xFF).wf = true := by decide

/-- EncodeOfDecodeIsTheBytes, at the edges of both formats. -/
theorem witness_decoded :
    decode .mmio [0x1F, 0xFF, 0x01] = .ok (.wrVolApply3 0xFF, [0x01]) ∧ decode .mmio [0x00] = .ok (.rdStatus 0, [])
      ∧ decode .cmd [0xFF, 0x01] = .ok (.cmdError 0xFF, [0x01]) ∧ decode .cmd [0x00] = .ok (.cmdError 0x00, []) := by
  decide

/-- S1 with this transaction next. -/
def s1Next (t : Transaction) : State := { s1 with pending := [t] }

/-- StepRunsTheDecodedAccess: a read and a write at the first and last address of the window. -/
theorem witness_step_access :
    (s1Next (.guestRead 0x1F801800)).live ∧ (s1Next (.guestRead 0x1F801800)).pending = [.guestRead 0x1F801800]
      ∧ (s1Next (.guestWrite 0x1F801803 0x07)).pending = [.guestWrite 0x1F801803 0x07]
      ∧ decode .mmio (readBytes ((0x1F801800 : Address).extractLsb' 0 2) s1.index).2 = .ok (.rdStatus 0, [])
      ∧ decode .mmio (writeBytes ((0x1F801803 : Address).extractLsb' 0 2) s1.index 0x07).2 = .ok (.wrRequest 0x07, [])
      ∧ (0x1F801800 ≤ (0x1F801800 : Address).toNat ∧ (0x1F801803 : Address).toNat ≤ 0x1F801803) := by
  refine ⟨rfl, rfl, rfl, by decide, by decide, by decide⟩

/-- StepRunsTheDecodedAccess: a command write, and the addresses next to the window. -/
theorem witness_step_command_and_outside :
    (s1Next (.guestWrite 0x1F801801 0x1A)).pending = [.guestWrite 0x1F801801 0x1A] ∧ s1.index = 0
      ∧ (0x1F801801 : Address).extractLsb' 0 2 = 1#2 ∧ decode .cmd [0x1A] = .ok (.getID, [])
      ∧ (s1Next (.guestRead 0x1F8017FF)).live ∧ (0x1F8017FF : Address).toNat < 0x1F801800
      ∧ (s1Next (.guestWrite 0x1F801804 0x00)).live ∧ 0x1F801803 < (0x1F801804 : Address).toNat := by
  refine ⟨by decide, by decide, by decide, by decide, rfl, by decide, rfl, by decide⟩

/-- StepRunsTheHostCalls: one state for each clause. -/
theorem witness_step_host :
    (s1Next .hostStep).live ∧ (s1Next .hostStep).pending = [.hostStep]
      ∧ (s1Next .hostReadWord).pending = [.hostReadWord] ∧ (s1Next (.hostInsert e0)).pending = [.hostInsert e0]
      ∧ (s1Next (.guestWide 0x1F801800)).pending = [.guestWide 0x1F801800] ∧ s1.pending = [] :=
  ⟨rfl, rfl, rfl, rfl, rfl, rfl⟩

/-- FaultedModelHasNoTransition. -/
theorem witness_faulted : ({ s1 with faulted := some .setmodeBit4 } : State).faulted = some .setmodeBit4 := rfl

/-- ReadResponsePopsTheFront: both clauses. -/
theorem witness_responses :
    ({ s1 with respFifo := [0x02] } : State).live ∧ ({ s1 with respFifo := [0x02] } : State).respFifo = 0x02 :: []
      ∧ s1.respFifo = [] := ⟨rfl, rfl, rfl⟩

/-- ReadDataServesTheNextByte, WriteRequestExchangesOrClears, DataReadsDeliverTheSectorInOrder: the last byte of each
sector size, the drained buffers and the cleared one. -/
theorem witness_bytes_left :
    (loaded 0x00 2047).live ∧ bytesLeft (loaded 0x00 2047) = 1 ∧ bytesLeft (loaded 0x00 2048) = 0
      ∧ bytesLeft (loaded 0x20 2339) = 1 ∧ bytesLeft (loaded 0x20 2340) = 0 ∧ bytesLeft s1 = 0
      ∧ (0x80 : Byte).getLsbD 7 = true ∧ (0x7F : Byte).getLsbD 7 = false
      ∧ bytesLeft (loaded 0x00 0) = 2048 := by
  refine ⟨rfl, by decide, by decide, by decide, by decide, by decide, by decide, by decide, by decide⟩

/-- ReadIntFlagShowsTheFrontCode, FrontCodeStaysUntilAckOrCommand, StepClearsBusyAndRaisesTheEnabledFront. -/
theorem witness_front_code :
    ({ s1 with irqFifo := [.errorInt5, .secondInt1] } : State).live
      ∧ ({ s1 with irqFifo := [.errorInt5, .secondInt1] } : State).irqFifo = .errorInt5 :: [.secondInt1]
      ∧ s1.irqFifo = [] := ⟨rfl, rfl, rfl⟩

/-- FrontCodeStaysUntilAckOrCommand and OnlyWriteIndexChangesTheBank: an access, a step, a word read and an insertion
that answer a next state. -/
theorem witness_entry_points :
    (∃ t, exec (.rdIntFlag 1) { s1 with irqFifo := [.errorInt5] } = .next t)
      ∧ (∃ t, execStep { s1 with irqFifo := [.errorInt5] } = .next t)
      ∧ (∃ t, execReadWord { s1 with irqFifo := [.errorInt5] } = .next t)
      ∧ ∃ t, execInsert e0 { s1 with irqFifo := [.errorInt5] } = .next t :=
  ⟨⟨_, rfl⟩, ⟨_, rfl⟩, ⟨_, rfl⟩, ⟨_, rfl⟩⟩

/-- WriteParamPushesOrFaults: the last push that fits and the first that does not. -/
theorem witness_param_room :
    (s1With (List.replicate 15 0)).live ∧ (s1With (List.replicate 15 0)).paramFifo.length < 16
      ∧ (s1With (List.replicate 16 0)).live ∧ 16 ≤ (s1With (List.replicate 16 0)).paramFifo.length := by
  refine ⟨rfl, by decide, rfl, by decide⟩

/-- WriteCommandDispatchesOnTheOpcode: unassigned opcodes next to assigned ones. -/
theorem witness_unassigned :
    (0x00 : Byte) ∉ assignedOpcodes ∧ (0x04 : Byte) ∉ assignedOpcodes ∧ (0x1C : Byte) ∉ assignedOpcodes
      ∧ (0xFF : Byte) ∉ assignedOpcodes := by decide

/-- SetlocStoresTheSeekSector, with the fewest parameters and with one more; SetfilterEchoesItsParameters. -/
theorem witness_setloc_setfilter :
    (s1With [0x00, 0x02, 0x16]).live ∧ (s1With [0x00, 0x02, 0x16]).paramFifo = 0x00 :: 0x02 :: 0x16 :: []
      ∧ (s1With [0x99, 0x59, 0x74, 0x55]).paramFifo = 0x99 :: 0x59 :: 0x74 :: [0x55]
      ∧ (s1With [0xFF, 0x00]).paramFifo = 0xFF :: 0x00 :: [] := ⟨rfl, rfl, rfl, rfl⟩

/-- PlayAndItsAliasStartPlaying and ReadCommandsStartReading: both instructions, with and without a parameter. -/
theorem witness_play_read :
    (Instr.getlocP = .play ∨ Instr.getlocP = .getlocP) ∧ (Instr.readS = .readN ∨ Instr.readS = .readS)
      ∧ s1.live ∧ s1.paramFifo = [] ∧ (s1With [0x01]).live ∧ (s1With [0x01]).paramFifo ≠ [] := by
  refine ⟨.inr rfl, .inr rfl, rfl, rfl, rfl, by decide⟩

/-- MuteAndDemuteSetTheFlag: the state a Mute and a Demute leave. -/
theorem witness_mute : (∃ t, exec .mute s1 = .next t) ∧ ∃ t, exec .demute s1 = .next t := ⟨⟨_, rfl⟩, ⟨_, rfl⟩⟩

/-- SetmodeWritesTheModeOrFaults: a mode with every bit but bit 4, and one with bit 4 alone. -/
theorem witness_setmode :
    (s1With [0xEF]).live ∧ (s1With [0xEF]).paramFifo = 0xEF :: [] ∧ (0xEF : Byte).getLsbD 4 = false
      ∧ (s1With [0x10]).paramFifo = 0x10 :: [] ∧ (0x10 : Byte).getLsbD 4 = true := by
  refine ⟨rfl, rfl, by decide, rfl, by decide⟩

/-- GetTDReportsMinutesAndSeconds: track 0, the first track, and the largest number a byte gives. -/
theorem witness_getTD :
    (s1With [0x00]).live ∧ (s1With [0x00]).paramFifo = 0x00 :: [] ∧ nibbles 0x00 = 0 ∧ nibbles 0x01 = (1 : Nat)
      ∧ nibbles 0xFF = (165 : Nat) := by
  refine ⟨rfl, rfl, by decide, by decide, by decide⟩

/-- TestAnswersItsSubFunction: the three clauses. -/
theorem witness_test :
    (s1With [0x20]).live ∧ (s1With [0x20]).paramFifo = 0x20 :: [] ∧ (s1With [0x21]).paramFifo = 0x21 :: []
      ∧ (0x21 : Byte) ≠ 0x20 ∧ s1.paramFifo = [] := by
  refine ⟨rfl, rfl, rfl, by decide, rfl⟩

/-- GetIDTellsShellDiscAndNoDisc: the three clauses. -/
theorem witness_getID :
    s0.live ∧ statField s0.stat .shellOpen = true ∧ statField s1.stat .shellOpen = false ∧ s1.disc.isEmpty = false
      ∧ statField s2.stat .shellOpen = false ∧ s2.disc.isEmpty = true := by
  refine ⟨rfl, by decide, by decide, by decide, by decide, by decide⟩

/-- MissingParametersFault: one parameter too few for each. -/
theorem witness_missing_parameters :
    (s1With [0x00, 0x02]).live ∧ (s1With [0x00, 0x02]).paramFifo.length < 3 ∧ (s1With [0x01]).paramFifo.length < 2
      ∧ (s1With []).paramFifo = [] := by
  refine ⟨rfl, by decide, by decide, rfl⟩

/-- CommandsDrainTheirParameters: a command with parameters that runs to its end, not Play or GetlocP, with exactly the
parameters it consumes; and one that consumes none. -/
theorem witness_drain :
    (∃ t, exec .setloc (s1With [0x00, 0x02, 0x16]) = .next t ∧ t.live)
      ∧ (s1With [0x00, 0x02, 0x16]).paramFifo.length = operandCount .setloc
      ∧ (∃ t, exec .getstat s1 = .next t ∧ t.live) ∧ s1.paramFifo.length = operandCount .getstat
      ∧ Instr.setloc.isCommand = true ∧ Instr.setloc ≠ .play ∧ Instr.setloc ≠ .getlocP := by
  refine ⟨⟨_, rfl, rfl⟩, rfl, ⟨_, rfl, rfl⟩, rfl, rfl, by decide, by decide⟩

/-- CommandsLeaveTheHostStateAlone, CommandsLeaveTheStatusByteBusy, CommandsDiscardEarlierResponses: a command that runs to its end, and one that
records a fault. -/
theorem witness_command :
    Instr.getID.isCommand = true ∧ (∃ t, exec .getID s1 = .next t ∧ t.live)
      ∧ ∃ t, exec .setloc s1 = .next t ∧ ¬ t.live := by
  refine ⟨rfl, ⟨_, rfl, rfl⟩, ⟨_, rfl, nofun⟩⟩

/-- OnlyTheListedCommandsChangeTheDriveState and OnlyStepRaisesAndAtMostOnce: a command the table lists and one it does
not, a register access, and the three host calls. -/
theorem witness_drive_state :
    (∃ t, exec .pause s1 = .next t ∧ t.live) ∧ (∃ t, exec .mute s1 = .next t ∧ t.live)
      ∧ (∃ t, exec (.wrParam 0x00) s1 = .next t) ∧ (Instr.wrParam 0x00).isCommand = false
      ∧ (∃ t, execStep s1 = .next t) ∧ (∃ t, execReadWord s1 = .next t) ∧ ∃ t, execInsert e0 s1 = .next t := by
  refine ⟨⟨_, rfl, rfl⟩, ⟨_, rfl, rfl⟩, ⟨_, rfl⟩, rfl, ⟨_, rfl⟩, ⟨_, rfl⟩, ⟨_, rfl⟩⟩

/-- FaultsExactlyOnTheListedCauses: each cause, and no cause, at the edge. -/
theorem witness_fault_causes :
    faultCause (.wrParam 0x00) (List.replicate 16 0) = some .paramFifoOverflow
      ∧ faultCause (.wrParam 0x00) (List.replicate 15 0) = none
      ∧ faultCause (.wrCommand 0x02) [0x00, 0x02] = some .paramFifoEmpty
      ∧ faultCause .setloc [0x00, 0x02, 0x16] = none
      ∧ faultCause .play [0x00] = some .playWithParams
      ∧ faultCause .setmode [0x10] = some .setmodeBit4 := by decide

/-- StoppedAndSeekingStepsFetchNothing: Stopped, and Seeking. -/
theorem witness_idle_drive :
    s1.live ∧ statField 0x00 .reading = false ∧ statField 0x00 .playing = false ∧ statField 0x40 .reading = false
      ∧ statField 0x40 .playing = false := by
  refine ⟨rfl, by decide, by decide, by decide, by decide⟩

/-- StepCountsDownTheCadence: Reading, one step short of the last; Playing too. -/
theorem witness_counting :
    ({ s1 with stat := 0x20, stepsUntilReadSect := 2 } : State).live
      ∧ statField 0x20 .reading = true ∧ statField 0x80 .playing = true
      ∧ ({ s1 with stat := 0x20, stepsUntilReadSect := 2 } : State).stepsUntilReadSect ≠ 1 := by
  refine ⟨rfl, by decide, by decide, by decide⟩

/-- CadenceExpiryFetchesOneSector: Reading and Playing at the last step, with a sector of each kind. -/
theorem witness_expiry :
    (aboutToFetch 0x20 .data).live ∧ (aboutToFetch 0x20 .data).stepsUntilReadSect = 1
      ∧ statField (aboutToFetch 0x20 .data).stat .reading = true
      ∧ statField (aboutToFetch 0x80 .data).stat .reading = false
      ∧ statField (aboutToFetch 0x80 .data).stat .playing = true
      ∧ (discRead (aboutToFetch 0x20 .data).disc 16).kind = .data
      ∧ (discRead (aboutToFetch 0x20 .audio).disc 16).kind = .audio
      ∧ (discRead (aboutToFetch 0x20 .invalid).disc 16).kind = .invalid := by
  refine ⟨rfl, rfl, by decide, by decide, by decide, by decide, by decide, by decide⟩

/-- A sector that starts with the sync magic. -/
def syncSector : Sector :=
  { bytes := (List.range 10).foldl (fun v k => v.setIfInBounds (k + 1) 0xFF) (Vector.replicate 2352 0), kind := .data }

/-- SyncCheckNeverChangesState: one sector with the magic and one without, of the same kind, at the LBA of the fetch. -/
theorem witness_sync :
    (discRead (imageWith syncSector) 16).kind = (discRead (imageWith (sectorWith 24 0x28 .data)) 16).kind
      ∧ syncOk (discRead (imageWith syncSector) 16).bytes = true
      ∧ syncOk (discRead (imageWith (sectorWith 24 0x28 .data)) 16).bytes = false
      ∧ (∃ t, execStep { aboutToFetch 0x20 .data with disc := imageWith syncSector } = .next t)
      ∧ ∃ u, execStep { aboutToFetch 0x20 .data with disc := imageWith (sectorWith 24 0x28 .data) } = .next u := by
  refine ⟨by decide, by decide +kernel, by decide, ⟨_, rfl⟩, ⟨_, rfl⟩⟩

/-- SyncCheckNeverChangesState, where nothing is staged: an Invalid sector, and a step short of the expiry. -/
theorem witness_sync_not_staged :
    (discRead (imageWith { syncSector with kind := .invalid }) 16).kind =
        (discRead (imageWith (sectorWith 24 0x28 .invalid)) 16).kind
      ∧ syncOk (discRead (imageWith { syncSector with kind := .invalid }) 16).bytes = true
      ∧ syncOk (discRead (imageWith (sectorWith 24 0x28 .invalid)) 16).bytes = false
      ∧ ¬(discRead (imageWith { syncSector with kind := .invalid }) 16).kind ≠ .invalid
      ∧ ¬({ aboutToFetch 0x20 .data with stepsUntilReadSect := 2 } : State).stepsUntilReadSect = 1 := by
  refine ⟨by decide, by decide +kernel, by decide, by decide, by decide⟩

/-- CadenceExpiryFetchesOneSector and InsertReplacesTheDiscAndClosesTheShell: a canonical image that stores the sector
fetched, a track, the track count and the size. -/
theorem witness_recorded :
    (aboutToFetch 0x20 .data).disc.wf = true
      ∧ ((aboutToFetch 0x20 .data).readSector, sectorWith 24 0x28 .data) ∈ (aboutToFetch 0x20 .data).disc.sectors
      ∧ (10, (⟨0, 0, 0⟩ : Position)) ∈ d1.tracks ∧ d1.wf = true
      ∧ d1.trackCount = some 1 ∧ d1.size = some ⟨0, 4, 0⟩ := by
  refine ⟨by decide, List.mem_cons_self .., by decide, by decide, rfl, rfl⟩

/-- IntOneArrivesWhenTheCounterExpires: with no step before the last (`n = 0`), and with one. -/
theorem witness_int_one :
    (aboutToFetch 0x20 .data).live ∧ (aboutToFetch 0x20 .data).stepsUntilReadSect = (0 : Nat) + 1
      ∧ ({ aboutToFetch 0x20 .data with stepsUntilReadSect := 2 } : State).stepsUntilReadSect = (1 : Nat) + 1
      ∧ (discRead (aboutToFetch 0x20 .data).disc (aboutToFetch 0x20 .data).readSector).kind = .data
      ∧ (aboutToFetch 0x20 .data).irqFifo.length < 16 ∧ (aboutToFetch 0x20 .data).respFifo.length < 16 := by
  refine ⟨rfl, rfl, rfl, by decide, by decide, by decide⟩

/-- BcdConversionsAreInverse and MsfRoundTripIsLossless: the edges of the ranges. -/
theorem witness_ranges :
    (99 : Nat) < 100 ∧ (0x99 : Byte).toNat / 16 ≤ 9 ∧ (0x99 : Byte).toNat % 16 ≤ 9
      ∧ ((0 : Int) ≤ 0 ∧ (59 : Int) ≤ 59 ∧ (74 : Int) ≤ 74) := by decide

/-- EveryStepKeepsTheInvariants: a state that meets the invariants and steps to a next one, through each kind of
transaction but the wide access. -/
theorem witness_invariant :
    Inv { s0 with pending := [.guestWrite 0x1F801801 0x0A, .hostStep, .hostInsert e0] }
      ∧ ∃ t, step { s0 with pending := [.guestWrite 0x1F801801 0x0A, .hostStep, .hostInsert e0] } = .next t := by
  refine ⟨?_, _, rfl⟩
  constructor
  case drive => exact ⟨by decide, by decide, by decide⟩
  case counterLow => show (1 : Int) ≤ Config.readSectorDelaySteps; unfold Config.readSectorDelaySteps; omega
  case counterHigh => exact le_refl _
  case modeBit4 => intro _; decide
  case pendingWf =>
    intro image h
    simp only [List.mem_cons, reduceCtorEq, false_or, List.not_mem_nil, or_false, Transaction.hostInsert.injEq] at h
    subst h
    decide
  all_goals decide

end Sys2Proof.Tests
end

section
/-! The register file (spec/40_register_file.md): the interrupt flag byte, the bank index and the audio cells. -/

namespace Sys2Proof.Machine

/-! ### The fields that the cells read and write -/

/-- Only the front code shows (R105). -/
theorem intFlagByte_cons {s : State} {code : IrqCode} {rest : List IrqCode} (h : s.irqFifo = code :: rest) :
    intFlagByte s = 0xE0 ||| (code.toByte &&& 7) := by
  simp only [intFlagByte, h]

theorem intFlagByte_nil {s : State} (h : s.irqFifo = []) : intFlagByte s = 0xE0 := by
  simp only [intFlagByte, h]

/-- The two bits that WR_INDEX keeps, as a remainder (R84, R106). -/
theorem newIndex_eq (value : Byte) : newIndex value = BitVec.ofNat 2 (value.toNat % 4) := by
  apply BitVec.eq_of_toNat_eq
  simp [newIndex]

/-! ### The statements -/

/-- Settles O13: the read only adds `intFlagByte` to the trace, and that byte is known for each shape of the FIFO. -/
theorem readIntFlagShowsTheFrontCode : Obligations.ReadIntFlagShowsTheFrontCode := by
  intro s bank hlive
  have hread : exec (.rdIntFlag bank) s = .next (s.emit (.regByte (intFlagByte s))) := exec_of_live hlive _
  constructor
  · intro code rest hfifo
    rw [hread, intFlagByte_cons hfifo, State.emit]
  · intro hfifo
    rw [hread, intFlagByte_nil hfifo, State.emit]

/-- Settles O14: the write's effect is `newIndex`, the value's remainder by 4. -/
theorem writeIndexTakesTheLowTwoBits : Obligations.WriteIndexTakesTheLowTwoBits := by
  intro s bank value hlive
  rw [exec_of_live hlive, effectOf, newIndex_eq]

/-- Settles O15: on a live state each audio cell is its effect, and that effect is the identity. -/
theorem audioCellWritesDoNothing : Obligations.AudioCellWritesDoNothing := by
  intro s value hlive
  simp only [exec_of_live hlive, effectOf, and_self]

end Sys2Proof.Machine
end

section
/-! The command interpreter (spec/41_command_interpreter.md): the dispatch of WR_COMMAND (R145) and the drain (R146). -/

namespace Sys2Proof.Machine

/-! ### The dispatch (R145) -/

/-- WR_COMMAND executes the command its byte decodes to. -/
theorem exec_wrCommand_eq_exec_decodeCommand (op : Byte) (s : State) :
    exec (.wrCommand op) s = exec (decodeCommand op) s := by
  rw [exec_eq_entry, exec_eq_entry, effectOf_of_isCommand (decodeCommand_isCommand op).1]
  rfl

theorem exec_wrCommand_of_unassigned {op : Byte} (h : op ∉ assignedOpcodes) (s : State) :
    exec (.wrCommand op) s = exec (.cmdError op) s := by
  rw [exec_wrCommand_eq_exec_decodeCommand, decodeCommand_of_unassigned h]

/-- The command error's rule cannot fault, so on a live state its frame runs to the end (R180). -/
theorem exec_cmdError_of_live {s : State} (hlive : s.live) (op : Byte) :
    exec (.cmdError op) s = .next (s.commandDone [.errorInt5] [0x11, 0x40]) := by
  have hrule : (ruleOf (.cmdError op) s.clearResponses).faulted = none := hlive
  rw [exec_of_live hlive, effectOf, commandFrame_of_live hrule]
  rfl

/-! ### A state with further parameters queued -/

/-- The state with parameters queued behind those it has. -/
def State.appendParams (s : State) (extra : List Byte) : State := { s with paramFifo := s.paramFifo ++ extra }

@[simp] theorem State.appendParams_faulted (s : State) (extra : List Byte) :
    (s.appendParams extra).faulted = s.faulted := rfl

@[simp] theorem State.appendParams_stat (s : State) (extra : List Byte) : (s.appendParams extra).stat = s.stat := rfl

@[simp] theorem State.appendParams_disc (s : State) (extra : List Byte) : (s.appendParams extra).disc = s.disc := rfl

@[simp] theorem State.clearResponses_appendParams (s : State) (extra : List Byte) :
    (s.appendParams extra).clearResponses = s.clearResponses.appendParams extra := rfl

@[simp] theorem State.pushResponse_appendParams (s : State) (extra : List Byte) (code : IrqCode) (bytes : List Byte) :
    (s.appendParams extra).pushResponse code bytes = (s.pushResponse code bytes).appendParams extra := rfl

@[simp] theorem State.pushStat_appendParams (s : State) (extra : List Byte) (code : IrqCode) :
    (s.appendParams extra).pushStat code = (s.pushStat code).appendParams extra := rfl

/-- The drain leaves nothing of them (R146). -/
@[simp] theorem State.finishCommand_appendParams (s : State) (extra : List Byte) :
    (s.appendParams extra).finishCommand = s.finishCommand := rfl

/-- `get_param` with a parameter there to pop leaves the further ones queued, if what it goes on with does so. -/
theorem getParam_appendParams {s : State} {go : Byte → State → State} {n : Nat} {extra : List Byte}
    (hlen : n + 1 ≤ s.paramFifo.length)
    (hgo : ∀ v (t : State), n ≤ t.paramFifo.length → go v (t.appendParams extra) = (go v t).appendParams extra) :
    getParam (s.appendParams extra) go = (getParam s go).appendParams extra := by
  obtain ⟨v, rest, hs⟩ := List.exists_cons_of_length_pos (Nat.lt_of_lt_of_le n.succ_pos hlen)
  have hs' : (s.appendParams extra).paramFifo = v :: (rest ++ extra) := congrArg (· ++ extra) hs
  have hrest : n ≤ rest.length := by simpa [hs] using hlen
  rw [getParam_cons hs, getParam_cons hs']
  exact hgo v { s with paramFifo := rest } hrest

/-- A rule that has the parameters it consumes leaves the further ones queued and is otherwise blind to them; Play's
rule, which tests the FIFO for emptiness, is not. -/
theorem ruleOf_appendParams {i : Instr} (hplay : i ≠ .play) (hgetlocP : i ≠ .getlocP) {s : State}
    (hlen : operandCount i ≤ s.paramFifo.length) (extra : List Byte) :
    ruleOf i (s.appendParams extra) = (ruleOf i s).appendParams extra := by
  cases i
  case play => exact absurd rfl hplay
  case getlocP => exact absurd rfl hgetlocP
  case setloc =>
    unfold ruleOf setlocRule
    exact getParam_appendParams hlen fun _ _ hlen => getParam_appendParams hlen fun _ _ hlen =>
      getParam_appendParams hlen fun _ _ _ => rfl
  case setfilter =>
    unfold ruleOf setfilterRule
    exact getParam_appendParams hlen fun _ _ hlen =>
      getParam_appendParams hlen fun _ t _ => t.pushResponse_appendParams ..
  case getTD =>
    unfold ruleOf getTDRule
    exact getParam_appendParams hlen fun _ t _ => t.pushResponse_appendParams ..
  case setmode =>
    unfold ruleOf setmodeRule
    exact getParam_appendParams hlen fun m _ _ => by dsimp only; split <;> rfl
  case test =>
    unfold ruleOf testRule
    exact getParam_appendParams hlen fun _ t _ => by split <;> exact t.pushResponse_appendParams ..
  case getID =>
    by_cases hshell : statField s.stat .shellOpen = true
    · simp [ruleOf, getIDRule, hshell]
    · by_cases hdisc : s.disc.isEmpty = true <;> simp [ruleOf, getIDRule, hshell, hdisc]
  all_goals rfl

/-! ### The end of a command -/

/-- A command frame that records no fault has run to its end. -/
theorem commandFrame_of_done_live {rule : State → State} {s : State} (h : (commandFrame rule s).live) :
    (rule s.clearResponses).faulted = none ∧ commandFrame rule s = (rule s.clearResponses).finishCommand := by
  obtain ⟨r, hfault, heq⟩ | hdone := commandFrame_cases rule s
  · rw [heq, State.live, hfault] at h
    cases h
  · exact hdone

/-- A command frame that runs to its end drains the further parameters its rule leaves queued. -/
theorem commandFrame_appendParams {rule : State → State} {s : State} {extra : List Byte}
    (hrule : rule (s.clearResponses.appendParams extra) = (rule s.clearResponses).appendParams extra)
    (h : (commandFrame rule s).live) : commandFrame rule (s.appendParams extra) = commandFrame rule s := by
  obtain ⟨hlive, hdone⟩ := commandFrame_of_done_live h
  rw [hdone, commandFrame_of_live] <;> simp [hrule, hlive]

/-! ### The statements -/

/-- Settles O20: the dispatch equation at each assigned byte, on which the decoder computes; any other byte
decodes to the command error. -/
theorem writeCommandDispatchesOnTheOpcode : Obligations.WriteCommandDispatchesOnTheOpcode := by
  intro s
  have assigned := fun op => exec_wrCommand_eq_exec_decodeCommand op s
  refine ⟨assigned 0x01, assigned 0x02, assigned 0x03, assigned 0x06, assigned 0x07, assigned 0x08, assigned 0x09,
    assigned 0x0A, assigned 0x0B, assigned 0x0C, assigned 0x0D, assigned 0x0E, assigned 0x0F, assigned 0x11,
    assigned 0x13, assigned 0x14, assigned 0x15, assigned 0x19, assigned 0x1A, assigned 0x1B, fun op hop => ?_⟩
  have herror := exec_wrCommand_of_unassigned hop s
  exact ⟨herror, fun hlive => herror.trans (exec_cmdError_of_live hlive op)⟩

/-- Settles O40: a command is the frame around its rule; the frame's end empties the FIFO, and what the rule leaves
queued there is all that further parameters change. -/
theorem commandsDrainTheirParameters : Obligations.CommandsDrainTheirParameters := by
  intro i s t hi
  have next_iff (s' : State) : exec i s' = .next t ↔ s'.live ∧ commandFrame (ruleOf i) s' = t := by
    rw [exec_eq_next_iff, effectOf_of_isCommand hi]
  constructor
  · intro hexec ht
    obtain ⟨-, rfl⟩ := (next_iff s).1 hexec
    rw [(commandFrame_of_done_live ht).2, State.finishCommand_paramFifo]
  · intro hplay hgetlocP hlen hexec ht extra
    obtain ⟨hs, rfl⟩ := (next_iff s).1 hexec
    have hrule := ruleOf_appendParams hplay hgetlocP (s := s.clearResponses) hlen.ge extra
    exact (next_iff (s.appendParams extra)).2 ⟨hs, commandFrame_appendParams hrule ht⟩

end Sys2Proof.Machine
end

section
/-! The commands (spec/42_commands.md): the answers of Getstat, MotorOn, Init, Mute and Demute, Getparam, GetTN, Test,
GetID and the command error (R160, R165, R168 to R170, R173, R174, R177, R178, R180). A command that answers is settled
by naming the state `u` whose cleared FIFOs its rule pushes into: the start, with the fields that the rule writes. -/

namespace Sys2Proof.Machine

/-! ### A command that answers -/

/-- A command whose rule records no fault runs its frame to the end (R140). -/
theorem exec_of_rule_live {i : Instr} (hi : i.isCommand = true) {s : State} (hlive : s.live)
    (hrule : (ruleOf i s.clearResponses).live) : exec i s = .next (ruleOf i s.clearResponses).finishCommand := by
  rw [exec_of_live hlive, effectOf_of_isCommand hi, commandFrame_of_live hrule]

/-- The cleared FIFOs have room for a group of up to 16 bytes (R140 to R142). -/
theorem finishCommand_pushResponse (u : State) (code : IrqCode) {bytes : List Byte} (hlen : bytes.length ≤ 16) :
    (u.clearResponses.pushResponse code bytes).finishCommand = u.commandDone [code] bytes := by
  have hbytes : pushAllBounded [] bytes = bytes := pushAllBounded_of_room (by simpa using hlen)
  simp only [State.commandDone, State.finishCommand, State.pushResponse, State.clearResponses, pushBounded_nil, hbytes]

/-- A stat byte and a second group of up to 15 bytes stand in the FIFOs one behind the other. -/
theorem finishCommand_pushResponse_pushResponse (u : State) (code₁ code₂ : IrqCode) (stat : Byte) {bytes : List Byte}
    (hlen : bytes.length ≤ 15) :
    ((u.clearResponses.pushResponse code₁ [stat]).pushResponse code₂ bytes).finishCommand =
      u.commandDone [code₁, code₂] (stat :: bytes) := by
  have hbytes : pushAllBounded [stat] bytes = stat :: bytes := pushAllBounded_of_room (by simp; omega)
  have hstat : pushAllBounded [] [stat] = [stat] := pushBounded_nil stat
  simp only [State.commandDone, State.finishCommand, State.pushResponse, State.clearResponses, pushBounded_nil,
    pushBounded_one, hstat, hbytes]

/-- A command whose rule is one response group. -/
theorem exec_of_one_response {i : Instr} (hi : i.isCommand = true) {s u : State} (hs : s.live) (hu : u.live)
    {code : IrqCode} {bytes : List Byte} (hlen : bytes.length ≤ 16)
    (hrule : ruleOf i s.clearResponses = u.clearResponses.pushResponse code bytes) :
    exec i s = .next (u.commandDone [code] bytes) := by
  rw [exec_of_rule_live hi hs (hrule ▸ hu), hrule, finishCommand_pushResponse u code hlen]

/-- A command whose rule is a stat response and a second group. -/
theorem exec_of_two_responses {i : Instr} (hi : i.isCommand = true) {s u : State} (hs : s.live) (hu : u.live)
    {code₁ code₂ : IrqCode} {stat : Byte} {bytes : List Byte} (hlen : bytes.length ≤ 15)
    (hrule : ruleOf i s.clearResponses = (u.clearResponses.pushResponse code₁ [stat]).pushResponse code₂ bytes) :
    exec i s = .next (u.commandDone [code₁, code₂] (stat :: bytes)) := by
  rw [exec_of_rule_live hi hs (hrule ▸ hu), hrule, finishCommand_pushResponse_pushResponse u code₁ code₂ stat hlen]

/-- A command whose rule faults stops there: the end of the frame is abandoned (R140, R258). -/
theorem exec_of_rule_fault {i : Instr} (hi : i.isCommand = true) {s : State} (hlive : s.live) {r : Fault}
    (hrule : (ruleOf i s.clearResponses).faulted = some r) : exec i s = .next (ruleOf i s.clearResponses) := by
  rw [exec_of_live hlive, effectOf_of_isCommand hi, commandFrame_of_fault hrule]

/-! ### The stat byte and the track count -/

/-- The byte that Init writes (R168, D1). -/
theorem setStatField_zero_spindleMotorOn : setStatField 0x00 .spindleMotorOn true = 0x02 := by decide

theorem statField_two (f : StatField) : statField 0x02 f = decide (f = .spindleMotorOn) := by
  cases f <;> rfl

/-- A count in BCD, by R150's sum (D7). -/
theorem decToBcd_natCast (n : Nat) : decToBcd n = BitVec.ofNat 8 (n / 10 * 16 + n % 10) := by
  rw [decToBcd_nat, natToBcd_eq]

/-! ### The rules, case by case -/

theorem testRule_of_version {s : State} {extra : List Byte} (h : s.paramFifo = 0x20 :: extra) :
    testRule s = { s with paramFifo := extra }.pushResponse .firstInt3 [0x94, 0x09, 0x19, 0xC0] := by
  rw [testRule, getParam_cons h, if_pos rfl]

theorem testRule_of_unknown {s : State} {sub : Byte} {extra : List Byte} (h : s.paramFifo = sub :: extra)
    (hsub : sub ≠ 0x20) : testRule s = { s with paramFifo := extra }.pushResponse .errorInt5 [0x11, 0x40] := by
  rw [testRule, getParam_cons h, if_neg hsub, pushCommandError]

theorem testRule_of_no_param {s : State} (h : s.paramFifo = []) : testRule s = s.raiseFault .paramFifoEmpty := by
  rw [testRule, getParam_nil h]

theorem getIDRule_of_shellOpen {s : State} (h : statField s.stat .shellOpen = true) :
    getIDRule s = s.pushResponse .errorInt5 [0x11, 0x80] := by
  rw [getIDRule, if_pos h]

theorem getIDRule_of_disc {s : State} (hshell : statField s.stat .shellOpen = false) (hdisc : s.disc.isEmpty = false) :
    getIDRule s = (s.pushResponse .firstInt3 [s.stat]).pushResponse .secondInt2
      [0x02, 0x00, 0x20, 0x00, 0x53, 0x43, 0x45, 0x41] := by
  rw [getIDRule, if_neg (by simp [hshell]), if_neg (by simp [hdisc]), State.pushStat]

theorem getIDRule_of_no_disc {s : State} (hshell : statField s.stat .shellOpen = false)
    (hdisc : s.disc.isEmpty = true) :
    getIDRule s = (s.pushResponse .firstInt3 [s.stat]).pushResponse .errorInt5
      [0x08, 0x40, 0x00, 0x00, 0x00, 0x00, 0x00, 0x00] := by
  rw [getIDRule, if_neg (by simp [hshell]), if_pos hdisc, State.pushStat]

/-! ### Mute and Demute -/

theorem exec_mute_of_live {s : State} (hlive : s.live) :
    exec .mute s = .next { s.commandDone [.firstInt3] [s.stat] with muted := true } :=
  exec_of_one_response (u := { s with muted := true }) (bytes := [s.stat]) rfl hlive hlive (by simp) rfl

theorem exec_demute_of_live {s : State} (hlive : s.live) :
    exec .demute s = .next { s.commandDone [.firstInt3] [s.stat] with muted := false } :=
  exec_of_one_response (u := { s with muted := false }) (bytes := [s.stat]) rfl hlive hlive (by simp) rfl

/-! ### The statements -/

/-- Settles O21: the rule is one group, the stat byte. -/
theorem getstatAnswersTheStatByte : Obligations.GetstatAnswersTheStatByte := by
  intro s hlive
  exact exec_of_one_response rfl hlive hlive (by simp) rfl

/-- Settles O25: the new byte is the old one with the field set, written before both pushes. -/
theorem motorOnSetsTheSpindleBit : Obligations.MotorOnSetsTheSpindleBit := by
  intro s hlive
  refine ⟨setStatField s.stat .spindleMotorOn true, fun f => ?_, ?_⟩
  · rw [statField_setStatField]
    by_cases hf : f = .spindleMotorOn <;> simp [hf]
  · exact exec_of_two_responses (u := { s with stat := setStatField s.stat .spindleMotorOn true }) rfl hlive
      hlive (by simp) rfl

/-- Settles O28: stat and mode are written between the two pushes, so the groups carry the old byte and 0x02. -/
theorem initResetsStatAndMode : Obligations.InitResetsStatAndMode := by
  intro s hlive
  refine ⟨?_, statField_two .shellOpen, fun f => ?_⟩
  · refine exec_of_two_responses (u := { s with stat := 0x02, mode := 0x00 }) rfl hlive hlive (by simp) ?_
    rw [ruleOf, initRule, setStatField_zero_spindleMotorOn]
    rfl
  · rw [statField_two, decide_eq_true_iff]

/-- Settles O29: a repeated command finds stat and flag as it leaves them. -/
theorem muteAndDemuteSetTheFlag : Obligations.MuteAndDemuteSetTheFlag := by
  intro s hlive
  refine ⟨exec_mute_of_live hlive, exec_demute_of_live hlive, fun t ht => ?_, fun t ht => ?_⟩
  · rw [exec_mute_of_live hlive] at ht
    cases ht
    exact exec_mute_of_live hlive
  · rw [exec_demute_of_live hlive] at ht
    cases ht
    exact exec_demute_of_live hlive

/-- Settles O32: the rule is one group that reads the stat byte and not the mode. -/
theorem getparamAnswersTwoZeroBytes : Obligations.GetparamAnswersTwoZeroBytes := by
  intro s hlive
  exact exec_of_one_response rfl hlive hlive (by simp) rfl

/-- Settles O33: the rule is one group, whose BCD bytes are R150's sum. -/
theorem getTNReportsTheTrackCount : Obligations.GetTNReportsTheTrackCount := by
  intro s hlive
  have hone : decToBcd 1 = 0x01 := decToBcd_natCast 1
  rw [← decToBcd_natCast, ← hone]
  exact exec_of_one_response rfl hlive hlive (by simp) rfl

/-- Settles O36: by the first parameter; what the rule leaves in `param_fifo` is drained. -/
theorem testAnswersItsSubFunction : Obligations.TestAnswersItsSubFunction := by
  intro s hlive
  refine ⟨fun extra hparams => ?_, fun sub extra hparams hsub => ?_, fun hparams => ?_⟩
  · exact exec_of_one_response (u := { s with paramFifo := extra }) rfl hlive hlive (by simp)
      (testRule_of_version hparams)
  · exact exec_of_one_response (u := { s with paramFifo := extra }) rfl hlive hlive (by simp)
      (testRule_of_unknown hparams hsub)
  · have hfault : (ruleOf .test s.clearResponses).faulted = some .paramFifoEmpty := by
      rw [ruleOf, testRule_of_no_param (s := s.clearResponses) hparams, State.raiseFault]
    exact ⟨_, exec_of_rule_fault rfl hlive hfault, hfault⟩

/-- Settles O37: one case for each branch of the rule. -/
theorem getIDTellsShellDiscAndNoDisc : Obligations.GetIDTellsShellDiscAndNoDisc := by
  intro s hlive
  refine ⟨fun hshell => ?_, fun ⟨hshell, hdisc⟩ => ?_, fun ⟨hshell, hdisc⟩ => ?_⟩
  · exact exec_of_one_response rfl hlive hlive (by simp) (getIDRule_of_shellOpen hshell)
  · exact exec_of_two_responses rfl hlive hlive (by simp) (getIDRule_of_disc hshell hdisc)
  · exact exec_of_two_responses rfl hlive hlive (by simp) (getIDRule_of_no_disc hshell hdisc)

/-- Settles O38: the rule pushes one group and writes no other field. -/
theorem commandErrorAnswersIntFive : Obligations.CommandErrorAnswersIntFive := by
  intro s op hlive
  exact exec_cmdError_of_live hlive op

end Sys2Proof.Machine
end

section
/-! Exceptions (spec/60_exceptions.md): a new command discards the pending codes and the unread response bytes (R257). -/

namespace Sys2Proof.Machine

/-- An entry point depends on its state only through the recorded fault and the effect. -/
theorem entry_congr {s u : State} {effect : State → State} (hfault : u.faulted = s.faulted)
    (heffect : effect u = effect s) : entry u effect = entry s effect := by
  rw [entry, entry, hfault, heffect]

/-- Settles O43: a command is the frame around its rule, which discards both FIFOs first; the recorded fault, on which
the entry point turns, is the same in both states. -/
theorem commandsDiscardEarlierResponses : Obligations.CommandsDiscardEarlierResponses := by
  intro i s codes bytes hi
  have hframe := commandFrame_discards (ruleOf i) s codes bytes
  rw [exec_eq_entry, exec_eq_entry, effectOf_of_isCommand hi]
  exact entry_congr rfl hframe

end Sys2Proof.Machine
end

section
/-! The decoder (spec/30_encoding.md sections 1 and 2): both directions of the round trip, the words written out from
the tables, and the rows of the opcode table. -/

namespace Sys2Proof

/-! ### Decoding what the encoder writes -/

theorem decode_encode_of_read {i : Instr} {slot : Slot} {index : Index} (hencode : encode i = readBytes slot index)
    (hdecode : decodeRead slot index = i) (rest : List Byte) :
    decode (encode i).1 ((encode i).2 ++ rest) = .ok (i, rest) := by
  subst hdecode
  rw [hencode]
  exact decode_readBytes slot index rest

theorem decode_encode_of_write {i : Instr} {slot : Slot} {index : Index} {value : Byte}
    (hencode : encode i = writeBytes slot index value) (hdecode : decodeWrite slot index value = i)
    (rest : List Byte) : decode (encode i).1 ((encode i).2 ++ rest) = .ok (i, rest) := by
  subst hdecode
  rw [hencode]
  exact decode_writeBytes slot index value rest

theorem decode_encode_of_command {i : Instr} {op : Byte} (hencode : encode i = (.cmd, [op]))
    (hdecode : decodeCommand op = i) (rest : List Byte) :
    decode (encode i).1 ((encode i).2 ++ rest) = .ok (i, rest) := by
  subst hdecode
  rw [hencode]
  exact decode_cmd_cons op rest

/-- Slot 3 is read as the enables or as the front code by bit 0 of the index (R82). -/
theorem decodeRead_three_of_even {index : Index} (h : index.getLsbD 0 = false) :
    decodeRead 3 index = .rdIntEnable index := by
  revert index; decide

theorem decodeRead_three_of_odd {index : Index} (h : index.getLsbD 0 = true) :
    decodeRead 3 index = .rdIntFlag index := by
  revert index; decide

/-! ### Encoding what the decoder reads -/

/-- The four values of a slot or an index. -/
theorem twoBits_cases : ∀ b : BitVec 2, b = 0 ∨ b = 1 ∨ b = 2 ∨ b = 3 := by decide

/-- A read's cell is well formed and is written back as the same access. -/
theorem encode_decodeRead (slot : Slot) (index : Index) :
    (decodeRead slot index).wf = true ∧ encode (decodeRead slot index) = readBytes slot index := by
  revert slot index; decide

/-- So is a write's. -/
theorem encode_decodeWrite (slot : Slot) (index : Index) (value : Byte) :
    (decodeWrite slot index value).wf = true
      ∧ encode (decodeWrite slot index value) = writeBytes slot index value := by
  obtain rfl | rfl | rfl | rfl := twoBits_cases slot
  case inl => exact ⟨rfl, rfl⟩
  all_goals obtain rfl | rfl | rfl | rfl := twoBits_cases index <;> exact ⟨rfl, rfl⟩

/-- A command is written back as its opcode byte. -/
theorem encode_decodeCommand (op : Byte) : encode (decodeCommand op) = (.cmd, [op]) := by
  revert op; decide

/-- A key is put together again from its direction, slot and index (R81). -/
theorem keyOf_fields_of_read {key : Key} (h : key.getLsbD 4 = false) :
    keyOf .read (key.extractLsb' 2 2) (key.extractLsb' 0 2) = key := by
  revert key; decide

theorem keyOf_fields_of_write {key : Key} (h : key.getLsbD 4 = true) :
    keyOf .write (key.extractLsb' 2 2) (key.extractLsb' 0 2) = key := by
  revert key; decide

theorem encode_decodeKey_of_read {key : Key} (h : key.getLsbD 4 = false) (value : Byte) :
    (decodeKey key value).wf = true ∧ encode (decodeKey key value) = (.mmio, [key.setWidth 8]) := by
  obtain ⟨hwf, hencode⟩ := encode_decodeRead (key.extractLsb' 2 2) (key.extractLsb' 0 2)
  rw [readBytes, keyOf_fields_of_read h] at hencode
  rw [decodeKey, h]
  exact ⟨hwf, hencode⟩

theorem encode_decodeKey_of_write {key : Key} (h : key.getLsbD 4 = true) (value : Byte) :
    (decodeKey key value).wf = true ∧ encode (decodeKey key value) = (.mmio, [key.setWidth 8, value]) := by
  obtain ⟨hwf, hencode⟩ := encode_decodeWrite (key.extractLsb' 2 2) (key.extractLsb' 0 2) value
  rw [writeBytes, keyOf_fields_of_write h] at hencode
  rw [decodeKey, h]
  exact ⟨hwf, hencode⟩

/-- A key byte that is not too wide is its low five bits. -/
theorem keyByte_fields {k : Byte} (h : ¬ 32 ≤ k.toNat) :
    (k.setWidth 5).setWidth 8 = k ∧ (k.setWidth 5).getLsbD 4 = k.getLsbD 4 := by
  revert k; decide

/-! ### The rows of the opcode table -/

/-- Which row a key is in does not depend on the byte written. -/
theorem mnemonic_decodeKey (key : Key) (value : Byte) :
    (decodeKey key value).mnemonic = (decodeKey key 0).mnemonic := by
  unfold decodeKey decodeWrite
  split_ifs <;> rfl

/-! ### The statements -/

/-- Settles O3: each row's bytes are read back as its cell or its command; the three rows with a restricted field are
those where well-formedness is used. -/
theorem decodeOfEncodeIsTheInstruction : Obligations.DecodeOfEncodeIsTheInstruction := by
  intro i rest hwf
  cases i
  case rdIntEnable index =>
    exact decode_encode_of_read rfl (decodeRead_three_of_even (by simpa [Instr.wf] using hwf)) rest
  case rdIntFlag index => exact decode_encode_of_read rfl (decodeRead_three_of_odd hwf) rest
  case cmdError op =>
    exact decode_encode_of_command rfl (decodeCommand_of_unassigned (by simpa [Instr.wf, isAssigned] using hwf)) rest
  case rdStatus | rdResponse | rdData => all_goals apply decode_encode_of_read <;> rfl
  case wrIndex | wrCommand | wrSoundMap | wrVol12 | wrVol13 | wrParam | wrIntEnable | wrVol22 | wrVol23 | wrRequest
      | wrIntAck | wrVolApply2 | wrVolApply3 =>
    all_goals apply decode_encode_of_write <;> rfl
  all_goals apply decode_encode_of_command <;> rfl

/-- Settles O4: a command is its opcode byte; an access's key byte is put together again from the fields it was decoded
by, with the written byte behind it for a write. -/
theorem encodeOfDecodeIsTheBytes : Obligations.EncodeOfDecodeIsTheBytes := by
  intro format bytes rest i hdecode
  cases bytes with
  | nil =>
    rw [decode_nil] at hdecode
    cases hdecode
  | cons k tail =>
    cases format with
    | cmd =>
      rw [decode_cmd_cons] at hdecode
      cases hdecode
      rw [encode_decodeCommand]
      exact ⟨(decodeCommand_isCommand k).2, rfl, rfl⟩
    | mmio =>
      rw [decode_mmio_cons] at hdecode
      split at hdecode
      next => cases hdecode
      next hnarrow =>
        obtain ⟨hbyte, hdir⟩ := keyByte_fields hnarrow
        split at hdecode
        next hwrite =>
          cases tail with
          | nil => cases hdecode
          | cons value rest' =>
            cases hdecode
            obtain ⟨hwf, hencode⟩ := encode_decodeKey_of_write (hdir.trans hwrite) value
            rw [hencode, hbyte]
            exact ⟨hwf, rfl, rfl⟩
        next hread =>
          cases hdecode
          obtain ⟨hwf, hencode⟩ := encode_decodeKey_of_read (hdir.trans (by simpa using hread)) 0
          rw [hencode, hbyte]
          exact ⟨hwf, rfl, rfl⟩

/-- Settles O1: the decoder computes on the words. -/
theorem specWordsDecode : Obligations.SpecWordsDecode := by
  exact ⟨rfl, rfl, rfl, rfl, rfl, rfl, rfl, rfl, rfl, rfl, rfl, rfl, rfl, rfl⟩

/-- Settles O2: the byte written does not matter, and the 32 keys are checked one by one. -/
theorem decodedCellIsTheOneRowThatMatches : Obligations.DecodedCellIsTheOneRowThatMatches := by
  intro key value
  rw [mnemonic_decodeKey]
  revert key
  decide

end Sys2Proof
end

section
/-! The register file (spec/40_register_file.md): the status byte (R101), the response byte (R102), and the cells that
write the parameters, the enables, the data buffers and the interrupt codes (R104, R111, R112, R115, R116). -/

namespace Sys2Proof.Machine

/-! ### The status byte -/

/-- A byte put together from an index and six flags gives each of them back. -/
theorem assembled_fields (index : Index) (b2 b3 b4 b5 b6 b7 : Bool) :
    let v : Byte := index.setWidth 8 ||| bitAt b2 2 ||| bitAt b3 3 ||| bitAt b4 4 ||| bitAt b5 5 ||| bitAt b6 6
      ||| bitAt b7 7
    v.extractLsb' 0 2 = index ∧ v.getLsbD 2 = b2 ∧ v.getLsbD 3 = b3 ∧ v.getLsbD 4 = b4 ∧ v.getLsbD 5 = b5
      ∧ v.getLsbD 6 = b6 ∧ v.getLsbD 7 = b7 := by
  revert index b2 b3 b4 b5 b6 b7
  decide

theorem paramFifoEmpty_eq (s : State) : paramFifoEmpty s = decide (s.paramFifo = []) := by
  cases h : s.paramFifo <;> simp [paramFifoEmpty, h]

theorem responseFifoNotEmpty_eq (s : State) : responseFifoNotEmpty s = decide (s.respFifo ≠ []) := by
  cases h : s.respFifo <;> simp [responseFifoNotEmpty, h]

/-- The status byte bit by bit (R21, R23). -/
theorem statusByte_fields (s : State) :
    (statusByte s).extractLsb' 0 2 = s.index
      ∧ (statusByte s).getLsbD 2 = s.adpcmFifoEmpty
      ∧ (statusByte s).getLsbD 3 = decide (s.paramFifo = [])
      ∧ (statusByte s).getLsbD 4 = decide (s.paramFifo.length < 16)
      ∧ (statusByte s).getLsbD 5 = decide (s.respFifo ≠ [])
      ∧ (statusByte s).getLsbD 6 = decide (0 < bytesLeft s)
      ∧ (statusByte s).getLsbD 7 = s.transmitBusy := by
  rw [← paramFifoEmpty_eq, ← responseFifoNotEmpty_eq, ← dataFifoNotEmpty_eq]
  exact assembled_fields ..

/-! ### The statements -/

/-- Settles O10: the read only adds the status byte to the trace. -/
theorem readStatusAssemblesTheStatusByte : Obligations.ReadStatusAssemblesTheStatusByte := by
  intro s bank hlive
  exact ⟨statusByte s, exec_of_live hlive _, statusByte_fields s⟩

/-- Settles O11: by the shape of the FIFO; with it empty the byte is the draw. -/
theorem readResponsePopsTheFront : Obligations.ReadResponsePopsTheFront := by
  intro s bank hlive
  rw [exec_of_live hlive, effectOf]
  constructor
  · intro v rest hfifo
    rw [hfifo]
    rfl
  · intro hfifo
    rw [hfifo]
    exact ⟨_, rfl⟩

/-- Settles O16: by whether there is room. -/
theorem writeParamPushesOrFaults : Obligations.WriteParamPushesOrFaults := by
  intro s value hlive
  rw [exec_of_live hlive, effectOf, Config.fifoDepth]
  constructor
  · intro hroom
    rw [if_pos hroom]
  · intro hfull
    rw [if_neg (Nat.not_lt.2 hfull), State.raiseFault]

/-- Settles O17: both cells move the whole byte. -/
theorem intEnableIsStoredAndReadWhole : Obligations.IntEnableIsStoredAndReadWhole := by
  intro s bank value hlive
  exact ⟨exec_of_live hlive _, exec_of_live hlive _⟩

/-- Settles O18: by bit 7 of the value, and with it set by whether bytes are left. -/
theorem writeRequestExchangesOrClears : Obligations.WriteRequestExchangesOrClears := by
  intro s value hlive
  rw [exec_of_live hlive, effectOf, wantData, dataFifoNotEmpty_eq]
  refine ⟨fun ⟨hwant, hdrained⟩ => ?_, fun ⟨hwant, hleft⟩ => ?_, fun hclear => ?_⟩
  · rw [if_pos hwant, if_neg (by simp [hdrained])]
  · rw [if_pos hwant, if_pos (decide_eq_true hleft)]
  · rw [if_neg (ne_true_of_eq_false hclear)]

/-- Settles O19: the pop is the same on both values of bit 6. -/
theorem writeIntAckPopsOneCode : Obligations.WriteIntAckPopsOneCode := by
  intro s value hlive
  rw [exec_of_live hlive, effectOf, alsoClearParams, List.drop_one]
  split <;> rfl

end Sys2Proof.Machine
end

section
/-! The step (spec/20_memory.md; spec/30_encoding.md section 1; spec/60_exceptions.md R258) and the state after reset
(spec/10_state.md R50). -/

namespace Sys2Proof.Machine

/-! ### Taking a transaction -/

/-- With a transaction pending, a live state takes it and runs its entry point. -/
theorem step_of_pending {s : State} (hlive : s.live) {t : Transaction} {rest : List Transaction}
    (h : s.pending = t :: rest) : step s = runEntryPoint (entryPointOf s.index t) { s with pending := rest } := by
  simp only [step, show s.faulted = none from hlive, h]

theorem step_of_idle {s : State} (hlive : s.live) (h : s.pending = []) : step s = .next s := by
  simp only [step, show s.faulted = none from hlive, h]

theorem step_of_faulted {s : State} {reason : Fault} (h : s.faulted = some reason) : step s = .fault reason := by
  simp only [step, h]

/-- Inside the window the slot is the low two address bits (R61). -/
theorem slotOf_of_inside {a : Address} (h : 0x1F801800 ≤ a.toNat ∧ a.toNat ≤ 0x1F801803) :
    slotOf a = some (a.extractLsb' 0 2) := by
  rw [slotOf, Config.mmioBase, Config.mmioSize, if_pos (by omega)]

theorem slotOf_of_outside {a : Address} (h : a.toNat < 0x1F801800 ∨ 0x1F801803 < a.toNat) : slotOf a = none := by
  rw [slotOf, Config.mmioBase, Config.mmioSize, if_neg (by omega)]

theorem entryPointOf_read {a : Address} {slot : Slot} (h : slotOf a = some slot) (index : Index) :
    entryPointOf index (.guestRead a) = .access (decodeRead slot index) := by
  simp only [entryPointOf, h, decodeKey_keyOf_read]

theorem entryPointOf_write {a : Address} {slot : Slot} (h : slotOf a = some slot) (index : Index) (value : Byte) :
    entryPointOf index (.guestWrite a value) = .access (decodeWrite slot index value) := by
  simp only [entryPointOf, h, decodeKey_keyOf_write]

/-- A read access's bytes stand for its cell and nothing else. -/
theorem eq_decodeRead_of_decode {slot : Slot} {index : Index} {i : Instr}
    (h : decode .mmio (readBytes slot index).2 = .ok (i, [])) : i = decodeRead slot index := by
  rw [← List.append_nil (readBytes slot index).2, decode_readBytes] at h
  cases h
  rfl

theorem eq_decodeWrite_of_decode {slot : Slot} {index : Index} {value : Byte} {i : Instr}
    (h : decode .mmio (writeBytes slot index value).2 = .ok (i, [])) : i = decodeWrite slot index value := by
  rw [← List.append_nil (writeBytes slot index value).2, decode_writeBytes] at h
  cases h
  rfl

/-! ### The statements -/

/-- Settles O5: inside the window the access is the cell its bytes decode to, and a write of cell (1, 0) runs the
command; outside it has no slot. -/
theorem stepRunsTheDecodedAccess : Obligations.StepRunsTheDecodedAccess := by
  intro s rest a value hlive
  refine ⟨fun hinside => ?_, fun houtside => ?_⟩
  · have hslot := slotOf_of_inside hinside
    refine ⟨fun hpending i hdecode => ?_, fun hpending i hdecode => ?_, fun hpending hone hbank i hdecode => ?_⟩
    · rw [step_of_pending hlive hpending, entryPointOf_read hslot, eq_decodeRead_of_decode hdecode, runEntryPoint]
    · rw [step_of_pending hlive hpending, entryPointOf_write hslot, eq_decodeWrite_of_decode hdecode, runEntryPoint]
    · rw [decode_cmd_cons] at hdecode
      cases hdecode
      rw [step_of_pending hlive hpending, entryPointOf_write hslot, hone, hbank]
      exact exec_wrCommand_eq_exec_decodeCommand value _
  · have hslot := slotOf_of_outside houtside
    constructor
    · intro hpending
      simp only [step_of_pending hlive hpending, entryPointOf, hslot, runEntryPoint]
    · intro hpending
      simp only [step_of_pending hlive hpending, entryPointOf, hslot, runEntryPoint]

/-- Settles O6: each host call is its own entry point, and a wide access none. -/
theorem stepRunsTheHostCalls : Obligations.StepRunsTheHostCalls := by
  intro s rest hlive
  exact ⟨fun h => step_of_pending hlive h, fun h => step_of_pending hlive h, fun _ h => step_of_pending hlive h,
    fun _ h => step_of_pending hlive h, step_of_idle hlive⟩

/-- Settles O7: the step tests the recorded fault, and every other entry point has the frame that does. -/
theorem faultedModelHasNoTransition : Obligations.FaultedModelHasNoTransition := by
  intro s reason hfault
  refine ⟨step_of_faulted hfault, fun i => ?_, entry_of_faulted hfault _, entry_of_faulted hfault _,
    fun image => entry_of_faulted hfault _⟩
  rw [exec_eq_entry, entry_of_faulted hfault]

/-- Every byte of a buffer is 0 after reset. -/
theorem sectorByte_replicate_zero {k : Nat} (h : k < 2352) : sectorByte (Vector.replicate 2352 0) k = 0 := by
  rw [sectorByte_of_lt _ h, Vector.getElem_replicate]

/-- Of the stat byte only shell_open is set after reset (R50; D1). -/
theorem statField_reset (f : StatField) : statField State.reset.stat f = true ↔ f = .shellOpen := by
  cases f <;> decide

/-- Settles O8: the fields are those written, and the status byte is computed from them. -/
theorem resetLeavesTheListedValues : Obligations.ResetLeavesTheListedValues := by
  refine ⟨rfl, rfl, rfl, statField_reset, rfl, rfl, rfl, rfl, rfl, rfl, fun k => sectorByte_replicate_zero, rfl, rfl,
    fun k => sectorByte_replicate_zero, rfl, rfl, rfl, rfl, rfl, rfl, ?_⟩
  decide

end Sys2Proof.Machine
end

section
/-! The commands that consume parameters or move the drive (spec/42_commands.md): Setloc, Play and GetlocP, ReadN and
ReadS, Stop, Pause, Setfilter, Setmode, GetTD and SeekL (R161 to R164, R166, R167, R171, R172, R175, R176, R179), and the
fault of a command that finds too few parameters (R143). -/

namespace Sys2Proof.Machine

/-! ### The stat byte and the BCD value -/

theorem setDriveBits_stopped (stat : Byte) : setDriveBits stat .stopped = stat &&& 0x1F := by
  revert stat; decide

/-- The byte that Stop writes: drive bits and motor bit are 0 (R166). -/
theorem setStatField_spindleMotorOn_stopped (stat : Byte) :
    setStatField (setDriveBits stat .stopped) .spindleMotorOn false = stat &&& 0x1D := by
  revert stat; decide

/-- A parameter's value, as an integer, is that of its nibbles (R149). -/
theorem bcdToDec_eq_nibbles (b : Byte) : (bcdToDec b : Int) = nibbles b := by
  rw [bcdToDec_eq, nibbles]
  push_cast
  rfl

/-! ### The rules with their parameters there -/

theorem setlocRule_of_params {s : State} {mm ss ff : Byte} {extra : List Byte}
    (h : s.paramFifo = mm :: ss :: ff :: extra) :
    setlocRule s =
      { { s with paramFifo := extra }.pushStat .firstInt3 with
        seekSector := msfToLba (bcdToDec mm) (bcdToDec ss) (bcdToDec ff) } := by
  rw [setlocRule, getParam_cons h]
  rfl

theorem setfilterRule_of_params {s : State} {file channel : Byte} {extra : List Byte}
    (h : s.paramFifo = file :: channel :: extra) :
    setfilterRule s =
      { s with paramFifo := extra }.pushResponse .firstInt3
        [s.stat, decToBcd file.toNat, decToBcd channel.toNat] := by
  rw [setfilterRule, getParam_cons h]
  rfl

theorem setmodeRule_of_clear {s : State} {m : Byte} {extra : List Byte} (h : s.paramFifo = m :: extra)
    (hbit : m.getLsbD 4 = false) :
    setmodeRule s = { { s with paramFifo := extra }.pushStat .firstInt3 with mode := m } := by
  rw [setmodeRule, getParam_cons h]
  dsimp only
  rw [if_neg (ne_true_of_eq_false hbit)]

theorem setmodeRule_of_set {s : State} {m : Byte} {extra : List Byte} (h : s.paramFifo = m :: extra)
    (hbit : m.getLsbD 4 = true) :
    setmodeRule s =
      { { s with paramFifo := extra }.pushStat .firstInt3 with mode := m }.raiseFault .setmodeBit4 := by
  rw [setmodeRule, getParam_cons h]
  dsimp only
  rw [if_pos hbit]

theorem getTDRule_of_param {s : State} {t : Byte} {extra : List Byte} (h : s.paramFifo = t :: extra) :
    getTDRule s =
      { s with paramFifo := extra }.pushResponse .firstInt3
        [s.stat, decToBcd (tocPosition s.disc (bcdToDec t)).minutes,
          decToBcd (tocPosition s.disc (bcdToDec t)).seconds] := by
  rw [getTDRule, getParam_cons h]

theorem playRule_of_no_param {s : State} (h : s.paramFifo = []) :
    playRule s = ((s.setDrive .playing).startAtSeek).pushStat .firstInt3 := by
  rw [playRule, if_pos (by simp [h])]

theorem playRule_of_param {s : State} (h : s.paramFifo ≠ []) : playRule s = s.raiseFault .playWithParams := by
  rw [playRule, if_neg (by simpa using h)]

/-! ### The rules with a parameter missing -/

/-- `get_param`, and what goes on with it, faults with the parameters consumed if there are too few (R143). -/
theorem getParam_starved {s : State} {go : Byte → State → State} {n : Nat} (hlen : s.paramFifo.length < n + 1)
    (hgo : ∀ v (t : State), t.paramFifo.length < n →
      go v t = { t with paramFifo := [] }.raiseFault .paramFifoEmpty) :
    getParam s go = { s with paramFifo := [] }.raiseFault .paramFifoEmpty := by
  cases hs : s.paramFifo with
  | nil => rw [getParam_nil hs, ← hs]
  | cons v rest =>
    have hrest : rest.length < n := by simpa [hs] using hlen
    rw [getParam_cons hs]
    exact hgo v { s with paramFifo := rest } hrest

/-- After the last `get_param` of a rule there is nothing left to miss. -/
theorem getParam_starved_last {s : State} {go : Byte → State → State} (hlen : s.paramFifo.length < 1) :
    getParam s go = { s with paramFifo := [] }.raiseFault .paramFifoEmpty :=
  getParam_starved hlen fun _ _ h => absurd h (Nat.not_lt_zero _)

theorem setlocRule_starved {s : State} (h : s.paramFifo.length < 3) :
    setlocRule s = { s with paramFifo := [] }.raiseFault .paramFifoEmpty :=
  getParam_starved h fun _ _ h => getParam_starved h fun _ _ h => getParam_starved_last h

theorem setfilterRule_starved {s : State} (h : s.paramFifo.length < 2) :
    setfilterRule s = { s with paramFifo := [] }.raiseFault .paramFifoEmpty :=
  getParam_starved h fun _ _ h => getParam_starved_last h

theorem setmodeRule_starved {s : State} (h : s.paramFifo.length < 1) :
    setmodeRule s = { s with paramFifo := [] }.raiseFault .paramFifoEmpty :=
  getParam_starved_last h

theorem getTDRule_starved {s : State} (h : s.paramFifo.length < 1) :
    getTDRule s = { s with paramFifo := [] }.raiseFault .paramFifoEmpty :=
  getParam_starved_last h

theorem testRule_starved {s : State} (h : s.paramFifo.length < 1) :
    testRule s = { s with paramFifo := [] }.raiseFault .paramFifoEmpty :=
  getParam_starved_last h

/-- A command whose rule is starved leaves the starved state. -/
theorem exec_of_starved {i : Instr} (hi : i.isCommand = true) {s : State} (hlive : s.live)
    (hrule : ruleOf i s.clearResponses =
      { s.clearResponses with paramFifo := [] }.raiseFault .paramFifoEmpty) :
    exec i s = .next s.commandStarved := by
  have hfault : (ruleOf i s.clearResponses).faulted = some .paramFifoEmpty := by
    rw [hrule, State.raiseFault_faulted]
  rw [exec_of_rule_fault hi hlive hfault, hrule]
  rfl

/-! ### Play, GetlocP and the read commands -/

theorem exec_play_of_live {s : State} {i : Instr} (hi : i.isCommand = true) (hrule : ruleOf i = playRule)
    (hlive : s.live) :
    (s.paramFifo = [] →
        exec i s =
          .next { s.commandDone [.firstInt3] [setDriveBits s.stat .playing] with
            stat := setDriveBits s.stat .playing, readSector := s.seekSector })
      ∧ (s.paramFifo ≠ [] →
          exec i s = .next { s with irqFifo := [], respFifo := [], faulted := some .playWithParams }) := by
  constructor
  · intro hparams
    refine exec_of_one_response (u := { s with stat := setDriveBits s.stat .playing, readSector := s.seekSector })
      (bytes := [_]) hi hlive hlive (by simp) ?_
    rw [hrule, playRule_of_no_param (s := s.clearResponses) hparams]
    rfl
  · intro hparams
    have heq : ruleOf i s.clearResponses = s.clearResponses.raiseFault .playWithParams := by
      rw [hrule, playRule_of_param (s := s.clearResponses) hparams]
    rw [exec_of_rule_fault hi hlive (r := .playWithParams) (by rw [heq, State.raiseFault_faulted]), heq]
    rfl

theorem exec_read_of_live {s : State} {i : Instr} (hi : i.isCommand = true) (hrule : ruleOf i = readRule)
    (hlive : s.live) :
    exec i s =
      .next { s.commandDone [.firstInt3] [setDriveBits s.stat .reading] with
        stat := setDriveBits s.stat .reading, readSector := s.seekSector } :=
  exec_of_one_response (u := { s with stat := setDriveBits s.stat .reading, readSector := s.seekSector })
    (bytes := [_]) hi hlive hlive (by simp) (by rw [hrule]; rfl)

/-! ### The statements -/

/-- Settles O22: with three parameters the rule is one group and the sector number of their nibbles. -/
theorem setlocStoresTheSeekSector : Obligations.SetlocStoresTheSeekSector := by
  intro s mm ss ff extra hlive hparams
  rw [← bcdToDec_eq_nibbles, ← bcdToDec_eq_nibbles, ← bcdToDec_eq_nibbles]
  exact exec_of_one_response
    (u := { s with paramFifo := extra, seekSector := msfToLba (bcdToDec mm) (bcdToDec ss) (bcdToDec ff) })
    (bytes := [s.stat]) rfl hlive hlive (by simp) (setlocRule_of_params hparams)

/-- Settles O23: both commands have Play's rule, whose drive bits are those of Playing. -/
theorem playAndItsAliasStartPlaying : Obligations.PlayAndItsAliasStartPlaying := by
  rintro s i (rfl | rfl) hlive
  · exact exec_play_of_live rfl rfl hlive
  · exact exec_play_of_live rfl rfl hlive

/-- Settles O24: both commands have ReadN's rule, whose drive bits are those of Reading. -/
theorem readCommandsStartReading : Obligations.ReadCommandsStartReading := by
  rintro s i (rfl | rfl) hlive
  · exact exec_read_of_live rfl rfl hlive
  · exact exec_read_of_live rfl rfl hlive

/-- Settles O26: the byte is written before both pushes. -/
theorem stopStopsTheDriveAndTheMotor : Obligations.StopStopsTheDriveAndTheMotor := by
  intro s hlive
  rw [← setStatField_spindleMotorOn_stopped]
  exact exec_of_two_responses
    (u := { s with stat := setStatField (setDriveBits s.stat .stopped) .spindleMotorOn false })
    rfl hlive hlive (by simp) rfl

/-- Settles O27: the byte is written between the two pushes. -/
theorem pauseReportsBeforeAndAfter : Obligations.PauseReportsBeforeAndAfter := by
  intro s hlive
  rw [← setDriveBits_stopped]
  exact exec_of_two_responses (u := { s with stat := setDriveBits s.stat .stopped }) rfl hlive hlive (by simp) rfl

/-- Settles O30: with two parameters the rule is one group, whose BCD bytes are R150's sums. -/
theorem setfilterEchoesItsParameters : Obligations.SetfilterEchoesItsParameters := by
  intro s file channel extra hlive hparams
  rw [← decToBcd_natCast, ← decToBcd_natCast]
  exact exec_of_one_response (u := { s with paramFifo := extra }) rfl hlive hlive (by simp)
    (setfilterRule_of_params hparams)

/-- Settles O31: by bit 4 of the first parameter, which the rule tests after the push and the write. -/
theorem setmodeWritesTheModeOrFaults : Obligations.SetmodeWritesTheModeOrFaults := by
  intro s m extra hlive hparams
  constructor
  · intro hbit
    exact exec_of_one_response (u := { s with paramFifo := extra, mode := m }) (bytes := [s.stat]) rfl hlive hlive
      (by simp) (setmodeRule_of_clear hparams hbit)
  · intro hbit
    have hrule := setmodeRule_of_set (s := s.clearResponses) hparams hbit
    rw [exec_of_rule_fault rfl hlive (r := .setmodeBit4) (by rw [ruleOf, hrule]; rfl), ruleOf, hrule]
    rfl

/-- Settles O34: the parameter's BCD value is that of its nibbles, and 0 names the whole disc. -/
theorem getTDReportsMinutesAndSeconds : Obligations.GetTDReportsMinutesAndSeconds := by
  intro s t extra hlive hparams
  have hexec := exec_of_one_response (u := { s with paramFifo := extra }) (i := .getTD) rfl hlive hlive (by simp)
    (getTDRule_of_param (s := s.clearResponses) hparams)
  rw [← bcdToDec_eq_nibbles]
  constructor
  · intro hzero
    rw [hexec, Int.natCast_eq_zero.1 hzero]
    rfl
  · intro track htrack hne
    rw [hexec, Int.natCast_inj.1 htrack, tocPosition, if_neg hne]
    rfl

/-- Settles O35: stat and sector are written between the two pushes. -/
theorem seekLSeeksAndCompletesAtOnce : Obligations.SeekLSeeksAndCompletesAtOnce := by
  intro s hlive
  exact exec_of_two_responses
    (u := { s with stat := setDriveBits s.stat .seeking, readSector := s.seekSector })
    (bytes := [setDriveBits s.stat .seeking]) rfl hlive hlive (by simp) rfl

/-- Settles O39: each rule, started on too few parameters, is starved. -/
theorem missingParametersFault : Obligations.MissingParametersFault := by
  intro s hlive
  refine ⟨fun hlen => ?_, fun hlen => ?_, fun hnone => ?_⟩
  · exact exec_of_starved rfl hlive (setlocRule_starved hlen)
  · exact exec_of_starved rfl hlive (setfilterRule_starved hlen)
  · have hlen : s.clearResponses.paramFifo.length < 1 := by simp [hnone]
    exact ⟨exec_of_starved rfl hlive (setmodeRule_starved hlen), exec_of_starved rfl hlive (getTDRule_starved hlen),
      exec_of_starved rfl hlive (testRule_starved hlen)⟩

end Sys2Proof.Machine
end

section
/-! The host calls (spec/43_sector_reader.md; spec/44_host_interface.md): the tick `step()` with its raise, its cadence
and its fetch (R201 to R212), the word read (R216) and the insertion (R234), and the bytes that slot 2 delivers (R214,
R215, R217). -/

namespace Sys2Proof.Machine

/-! ### The tick -/

theorem execStep_of_live {s : State} (hlive : s.live) :
    execStep s = .next (State.cadenceStep { s with transmitBusy := false, trace := s.trace ++ stepOutput s }) := by
  rw [execStep, entry_of_live hlive, raiseStep_eq]

/-- All that `step()` can answer with a next state. -/
theorem execStep_eq_next_iff {s t : State} :
    execStep s = .next t
      ↔ s.live ∧ State.cadenceStep { s with transmitBusy := false, trace := s.trace ++ stepOutput s } = t := by
  rw [execStep, entry_eq_next_iff, raiseStep_eq]

/-- The raise of R202, with the test on the front code and the enables as numbers. -/
theorem stepOutput_cons {s : State} {code : IrqCode} {rest : List IrqCode} (h : s.irqFifo = code :: rest) :
    stepOutput s =
      if code.toByte.toNat &&& s.intEnable.toNat &&& 7 ≠ 0 then [.raised .cdrom] else [] := by
  have hbits : frontEnabled s = decide (code.toByte.toNat &&& s.intEnable.toNat &&& 7 ≠ 0) := by
    simp [frontEnabled, h, bne, BitVec.toNat_eq, Bool.beq_eq_decide_eq]
  simp [stepOutput, hbits]

theorem stepOutput_nil {s : State} (h : s.irqFifo = []) : stepOutput s = [] := by
  simp [stepOutput, frontEnabled, h]

/-- Short of its expiry the counter only falls (R203). -/
theorem cadenceStep_counting {s : State} (hrun : isReading s.stat = true ∨ isPlaying s.stat = true)
    (hcount : s.stepsUntilReadSect ≠ 1) :
    s.cadenceStep = { s with stepsUntilReadSect := s.stepsUntilReadSect - 1 } := by
  rw [cadenceStep_running hrun, if_neg (by omega)]

/-- At its expiry the counter is reloaded and a sector is fetched (R204). -/
theorem cadenceStep_expiring {s : State} (hrun : isReading s.stat = true ∨ isPlaying s.stat = true)
    (hcount : s.stepsUntilReadSect = 1) :
    s.cadenceStep = { s with stepsUntilReadSect := Config.readSectorDelaySteps }.fetchSector := by
  rw [cadenceStep_running hrun, if_pos (by omega)]

/-! ### The fetch -/

/-- A sector that is not Invalid and not a Data sector fetched while Reading is only staged (R207, R211). -/
theorem fetchSector_silent {s : State} (hkind : (discRead s.disc s.readSector).kind ≠ .invalid)
    (hquiet : ¬(isReading s.stat = true ∧ (discRead s.disc s.readSector).kind = .data)) :
    s.fetchSector =
      { s with readSector := s.readSector + 1, readBuf := (discRead s.disc s.readSector).bytes } := by
  rw [fetchSector_staged hkind, State.dataReady, if_neg hquiet]

/-- A Data sector fetched while Reading is staged and announced by one INT1 group (R210). -/
theorem fetchSector_ready {s : State} (hread : isReading s.stat = true)
    (hkind : (discRead s.disc s.readSector).kind = .data) :
    s.fetchSector =
      { s with
        readSector := s.readSector + 1
        readBuf := (discRead s.disc s.readSector).bytes
        irqFifo := pushBounded s.irqFifo .secondInt1
        respFifo := pushBounded s.respFifo s.stat } := by
  rw [fetchSector_staged (by simp [hkind]), State.dataReady, if_pos ⟨hread, hkind⟩]
  rfl

/-- What a fetch leaves in `read_buf`: an Invalid sector is not staged (R206, R207; D16). -/
theorem fetchSector_readBuf (s : State) :
    s.fetchSector.readBuf =
      if (discRead s.disc s.readSector).kind = .invalid then s.readBuf else (discRead s.disc s.readSector).bytes := by
  by_cases hkind : (discRead s.disc s.readSector).kind = .invalid
  · rw [fetchSector_invalid hkind, if_pos hkind]
  · rw [fetchSector_staged hkind, if_neg hkind]
    obtain ⟨-, -, heq⟩ | ⟨-, heq⟩ := dataReady_cases
      { s with readSector := s.readSector + 1, readBuf := (discRead s.disc s.readSector).bytes }
      (discRead s.disc s.readSector).kind <;> rw [heq]
    rfl

/-- Beside `read_buf`, a fetch depends on the disc through the sector's kind alone. -/
theorem fetchSector_disc {s : State} {a b : DiscImage}
    (hkind : (discRead a s.readSector).kind = (discRead b s.readSector).kind) :
    State.fetchSector { s with disc := b } =
      { State.fetchSector { s with disc := a } with
        disc := b, readBuf := (State.fetchSector { s with disc := b }).readBuf } := by
  by_cases hinvalid : (discRead a s.readSector).kind = .invalid
  · rw [fetchSector_invalid (s := { s with disc := a }) hinvalid,
      fetchSector_invalid (s := { s with disc := b }) (hkind ▸ hinvalid)]
  · by_cases hready : isReading s.stat = true ∧ (discRead a s.readSector).kind = .data
    · obtain ⟨hread, hdata⟩ := hready
      rw [fetchSector_ready (s := { s with disc := a }) hread hdata,
        fetchSector_ready (s := { s with disc := b }) hread (hkind ▸ hdata)]
    · rw [fetchSector_silent (s := { s with disc := a }) hinvalid hready,
        fetchSector_silent (s := { s with disc := b }) (hkind ▸ hinvalid) (hkind ▸ hready)]

/-- Does a tick fetch a sector and stage it? -/
def State.stages (s : State) : Prop :=
  (isReading s.stat = true ∨ isPlaying s.stat = true) ∧ s.stepsUntilReadSect = 1
    ∧ (discRead s.disc s.readSector).kind ≠ .invalid

theorem cadenceStep_readBuf_of_stages {s : State} (h : s.stages) :
    s.cadenceStep.readBuf = (discRead s.disc s.readSector).bytes := by
  obtain ⟨hrun, hcount, hkind⟩ := h
  rw [cadenceStep_expiring hrun hcount, fetchSector_readBuf, if_neg hkind]

theorem cadenceStep_readBuf_of_not_stages {s : State} (h : ¬s.stages) : s.cadenceStep.readBuf = s.readBuf := by
  by_cases hrun : isReading s.stat = true ∨ isPlaying s.stat = true
  · by_cases hcount : s.stepsUntilReadSect = 1
    · have hkind : (discRead s.disc s.readSector).kind = .invalid := by
        by_contra hkind
        exact h ⟨hrun, hcount, hkind⟩
      rw [cadenceStep_expiring hrun hcount, fetchSector_readBuf, if_pos hkind]
    · rw [cadenceStep_counting hrun hcount]
  · simp only [not_or, Bool.not_eq_true] at hrun
    rw [cadenceStep_idle hrun.1 hrun.2]

/-- So does the cadence, which reads the disc only in its fetch. -/
theorem cadenceStep_disc {s : State} {a b : DiscImage}
    (hkind : (discRead a s.readSector).kind = (discRead b s.readSector).kind) :
    State.cadenceStep { s with disc := b } =
      { State.cadenceStep { s with disc := a } with
        disc := b, readBuf := (State.cadenceStep { s with disc := b }).readBuf } := by
  by_cases hrun : isReading s.stat = true ∨ isPlaying s.stat = true
  · by_cases hcount : s.stepsUntilReadSect = 1
    · rw [cadenceStep_expiring (s := { s with disc := a }) hrun hcount,
        cadenceStep_expiring (s := { s with disc := b }) hrun hcount]
      exact fetchSector_disc (s := { s with stepsUntilReadSect := Config.readSectorDelaySteps }) hkind
    · rw [cadenceStep_counting (s := { s with disc := a }) hrun hcount,
        cadenceStep_counting (s := { s with disc := b }) hrun hcount]
  · simp only [not_or, Bool.not_eq_true] at hrun
    rw [cadenceStep_idle (s := { s with disc := a }) hrun.1 hrun.2,
      cadenceStep_idle (s := { s with disc := b }) hrun.1 hrun.2]

/-! ### The statements about the tick -/

/-- Settles O49: the cadence keeps the busy bit and the trace, so both are those of the raise. -/
theorem stepClearsBusyAndRaisesTheEnabledFront : Obligations.StepClearsBusyAndRaisesTheEnabledFront := by
  intro s hlive
  obtain ⟨irqs, resps, count, lba, staged, hcadence⟩ :=
    cadenceStep_frame { s with transmitBusy := false, trace := s.trace ++ stepOutput s }
  refine ⟨_, (execStep_of_live hlive).trans (congrArg _ hcadence), rfl, fun code rest hfifo => ?_, fun hfifo => ?_⟩
  · exact congrArg (s.trace ++ ·) (stepOutput_cons hfifo)
  · exact (congrArg (s.trace ++ ·) (stepOutput_nil hfifo)).trans (List.append_nil _)

/-- Settles O50: with neither bit set the cadence is idle. -/
theorem stoppedAndSeekingStepsFetchNothing : Obligations.StoppedAndSeekingStepsFetchNothing := by
  intro s hlive hread hplay
  rw [execStep_of_live hlive]
  exact congrArg _ (cadenceStep_idle hread hplay)

/-- Settles O51: with one of the bits set and the counter not at 1 the cadence only counts. -/
theorem stepCountsDownTheCadence : Obligations.StepCountsDownTheCadence := by
  intro s hlive hrun hcount
  rw [execStep_of_live hlive]
  exact congrArg _ (cadenceStep_counting hrun hcount)

/-- Settles O52: at the expiry the cadence is the fetch, and each kind of sector is one of the fetch's cases. -/
theorem cadenceExpiryFetchesOneSector : Obligations.CadenceExpiryFetchesOneSector := by
  intro s hlive hrun hcount stepped sector
  have hfetch := (execStep_of_live hlive).trans (congrArg _ (cadenceStep_expiring hrun hcount))
  refine ⟨fun hkind => ?_, fun hkind => ?_, fun hkind hread => ?_, fun hkind hread => ?_, fun hwf stored hmem => ?_⟩
  · exact hfetch.trans (congrArg _ (fetchSector_invalid hkind))
  · have hvalid : sector.kind ≠ .invalid := by rw [hkind]; decide
    have hquiet : ¬(isReading s.stat = true ∧ sector.kind = .data) := by rw [hkind]; simp
    exact hfetch.trans (congrArg _ (fetchSector_silent hvalid hquiet))
  · have hvalid : sector.kind ≠ .invalid := by rw [hkind]; decide
    have hquiet : ¬(isReading s.stat = true ∧ sector.kind = .data) := by rw [isReading, hread]; simp
    exact hfetch.trans (congrArg _ (fetchSector_silent hvalid hquiet))
  · exact hfetch.trans (congrArg _ (fetchSector_ready hread hkind))
  · exact discRead_of_mem hwf hmem

/-- Settles O53: the check is the comparison, and the tick reads the disc only in the sector's kind, which is the same
in both images, and in the bytes it stages. -/
theorem syncCheckNeverChangesState : Obligations.SyncCheckNeverChangesState := by
  refine ⟨fun bytes => beq_iff_eq, fun s t u a b hkind _ _ ht hu => ?_⟩
  obtain ⟨-, rfl⟩ := execStep_eq_next_iff.1 ht
  obtain ⟨-, rfl⟩ := execStep_eq_next_iff.1 hu
  refine ⟨cadenceStep_disc (s := { s with transmitBusy := false, trace := s.trace ++ stepOutput s }) hkind,
    fun hstaging => ?_, fun hidle => ?_⟩
  · exact ⟨cadenceStep_readBuf_of_stages hstaging, cadenceStep_readBuf_of_stages (by rwa [hkind] at hstaging)⟩
  · exact ⟨cadenceStep_readBuf_of_not_stages hidle, cadenceStep_readBuf_of_not_stages (by rwa [hkind] at hidle)⟩

theorem runSteps_succ_of_next {s t : State} (h : execStep s = .next t) (n : Nat) :
    runSteps (n + 1) s = runSteps n t := by
  simp only [runSteps, h]

/-- Settles O54, by induction on the steps before the expiry: each of them only counts down, and the state it leaves
meets the same hypotheses with one step less. -/
theorem intOneArrivesWhenTheCounterExpires : Obligations.IntOneArrivesWhenTheCounterExpires := by
  intro s n hlive hread hcount hkind hirq hresp
  induction n generalizing s with
  | zero =>
    have hone : s.stepsUntilReadSect = 1 := by simpa using hcount
    obtain ⟨-, -, -, hfetch, -⟩ := cadenceExpiryFetchesOneSector s hlive (.inl hread) hone
    have hrun := runSteps_succ_of_next (hfetch hkind hread) 0
    rw [if_pos hirq, if_pos hresp] at hrun
    exact ⟨⟨s, rfl, rfl, rfl, rfl, rfl, hone⟩, ⟨_, hrun, rfl, rfl, rfl, rfl, rfl⟩⟩
  | succ n ih =>
    have htick := stepCountsDownTheCadence s hlive (.inl hread) (by omega)
    rw [runSteps_succ_of_next htick, runSteps_succ_of_next htick]
    refine ih _ hlive hread ?_ hkind hirq hresp
    rw [hcount]
    push_cast
    omega

/-! ### The data path -/

theorem execRdData_of_live {s : State} (hlive : s.live) :
    execRdData s =
      .next { s with
        dataBufferIndex := s.dataBufferIndex + min 1 (bytesLeft s)
        trace := s.trace ++ [.regByte (upcomingByte s 0)] } := by
  rw [execRdData, entry_of_live hlive, readByteValue_eq, advanceCursor_eq]
  rfl

/-- Settles O12: the cursor advances over the byte there is, and a drained buffer's byte is 0x00. -/
theorem readDataServesTheNextByte : Obligations.ReadDataServesTheNextByte := by
  intro s bank hlive
  have hread : exec (.rdData bank) s = _ := execRdData_of_live hlive
  constructor
  · intro hleft
    rw [hread, Nat.min_eq_left hleft]
  · intro hdrained
    rw [hread, upcomingByte_drained hdrained.le, hdrained, Nat.min_zero, Nat.add_zero]

theorem runDataReads_succ_of_next {s t : State} (h : execRdData s = .next t) (k : Nat) :
    runDataReads (k + 1) s = runDataReads k t := by
  simp only [runDataReads, h]

/-- `k` reads in a row, by induction on them: after the first, the bytes to come are those one further on. -/
theorem runDataReads_of_le {s : State} {k : Nat} (hlive : s.live) (hle : k ≤ bytesLeft s) :
    runDataReads k s =
      .next { s with
        dataBufferIndex := s.dataBufferIndex + k
        trace := s.trace ++ (List.range k).map fun j => .regByte (upcomingByte s j) } := by
  induction k generalizing s with
  | zero => simp [runDataReads]
  | succ k ih =>
    have hread := execRdData_of_live hlive
    rw [Nat.min_eq_left (by omega)] at hread
    have hbytes : (List.range k).map (fun j => Output.regByte (upcomingByte
        { s with dataBufferIndex := s.dataBufferIndex + 1, trace := s.trace ++ [.regByte (upcomingByte s 0)] } j)) =
        (List.range k).map (fun j => Output.regByte (upcomingByte s (j + 1))) := by
      refine List.map_congr_left fun j hj => ?_
      have hj' : j < k := List.mem_range.1 hj
      rw [upcomingByte_advance, if_pos (by omega)]
    rw [runDataReads_succ_of_next hread, ih (by exact hlive) (by rw [bytesLeft_advance]; omega), hbytes,
      List.range_succ_eq_map, List.map_cons, List.map_map, List.append_assoc, Nat.add_assoc, Nat.add_comm 1 k]
    rfl

/-- Settles O55: the reads' state is that of the induction, whose cursor leaves `k` bytes fewer. -/
theorem dataReadsDeliverTheSectorInOrder : Obligations.DataReadsDeliverTheSectorInOrder := by
  intro s k hlive hle
  exact ⟨_, runDataReads_of_le hlive hle, rfl, bytesLeft_advance s k _⟩

/-- The four byte reads of `read_word()` (R216). -/
theorem execReadWord_of_live {s : State} (hlive : s.live) :
    execReadWord s =
      .next { s with
        dataBufferIndex := s.dataBufferIndex + min 4 (bytesLeft s)
        trace := s.trace ++ [.dmaWord (wordOfBytes (upcomingByte s 0) (upcomingByte s 1) (upcomingByte s 2)
          (upcomingByte s 3))] } := by
  rw [execReadWord, entry_of_live hlive]
  dsimp only
  rw [advanceCursor_eq s, advanceCursor_after s 1, advanceCursor_after s 2, advanceCursor_after s 3,
    readByteValue_eq s, readByteValue_after s 1, readByteValue_after s 2, readByteValue_after s 3]
  rfl

/-- Bytes that do not meet: an or is a sum. -/
theorem or_shiftLeft_eq_add {a b k : Nat} (h : a < 2 ^ k) : a ||| b <<< k = a + 2 ^ k * b := by
  rw [Nat.or_comm, ← Nat.shiftLeft_add_eq_or_of_lt h, Nat.shiftLeft_eq, Nat.add_comm, Nat.mul_comm]

/-- The first byte stands in the low bits (R65, R216). -/
theorem wordOfBytes_toNat (b0 b1 b2 b3 : Byte) :
    (wordOfBytes b0 b1 b2 b3).toNat =
      b0.toNat + 256 * b1.toNat + 65536 * b2.toNat + 16777216 * b3.toNat := by
  have h0 := b0.isLt
  have h1 := b1.isLt
  have h2 := b2.isLt
  have h3 := b3.isLt
  have hword : (wordOfBytes b0 b1 b2 b3).toNat =
      ((b0.toNat ||| b1.toNat <<< 8) ||| b2.toNat <<< 16) ||| b3.toNat <<< 24 := by
    simp only [wordOfBytes, BitVec.toNat_or, BitVec.toNat_shiftLeft, BitVec.toNat_setWidth]
    simp only [Nat.shiftLeft_eq]
    congr 1
    · congr 1
      · congr 1 <;> omega
      · omega
    · omega
  rw [hword, or_shiftLeft_eq_add (b := b1.toNat) (by omega), or_shiftLeft_eq_add (b := b2.toNat) (by omega),
    or_shiftLeft_eq_add (b := b3.toNat) (by omega)]
  omega

/-- Settles O56: the word is that of the next four bytes. -/
theorem readWordTakesFourBytesLittleEndian : Obligations.ReadWordTakesFourBytesLittleEndian := by
  intro s hlive
  exact ⟨_, execReadWord_of_live hlive, wordOfBytes_toNat ..⟩

/-! ### The insertion -/

/-- Closing the shell clears bit 4 alone (R234; D1). -/
theorem setStatField_shellOpen_false (stat : Byte) : setStatField stat .shellOpen false = stat &&& 0xEF := by
  revert stat; decide

theorem execInsert_eq_entry (image : DiscImage) (s : State) :
    execInsert image s = entry s fun s => { s with disc := image, stat := s.stat &&& 0xEF } := by
  rw [execInsert]
  simp only [setStatField_shellOpen_false]

/-- Settles O57: the queries are asked of the image inserted. -/
theorem insertReplacesTheDiscAndClosesTheShell : Obligations.InsertReplacesTheDiscAndClosesTheShell := by
  intro s image hlive
  refine ⟨_, (execInsert_eq_entry image s).trans (entry_of_live hlive _), rfl, fun hwf => ⟨?_, ?_⟩, ?_, ?_⟩
  · exact fun lba stored hmem => discRead_of_mem hwf hmem
  · exact fun track start hmem => discTrackStart_of_mem hwf hmem
  · exact fun n hcount => discTrackCount_of_recorded hcount
  · exact fun size hsize => discSize_of_recorded hsize

end Sys2Proof.Machine
end

section
/-! What the instructions and the host calls can do, over all of them at once: the faults (spec/60_exceptions.md R259),
the drive state (spec/43_sector_reader.md R213), the bank (spec/40_register_file.md R120), the raises
(spec/44_host_interface.md R237), and what a command and an access leave unchanged. -/

namespace Sys2Proof.Machine

/-! ### The rule of a command -/

/-- The stat byte that a command's rule leaves where it does not fault (spec/42_commands.md). -/
def statAfter : Instr → Byte → Byte
  | .play, stat | .getlocP, stat => setDriveBits stat .playing
  | .readN, stat | .readS, stat => setDriveBits stat .reading
  | .seekL, stat => setDriveBits stat .seeking
  | .pause, stat => setDriveBits stat .stopped
  | .stop, stat => setStatField (setDriveBits stat .stopped) .spindleMotorOn false
  | .motorOn, stat => setStatField stat .spindleMotorOn true
  | .init, _ => setStatField 0x00 .spindleMotorOn true
  | _, stat => stat

/-- What a rule that answers leaves, when it runs in `s`. -/
structure RuleAnswers (i : Instr) (s t : State) : Prop where
  cause : commandFault i s.paramFifo = none
  faulted : t.faulted = s.faulted
  stat : t.stat = statAfter i s.stat
  mode : t.mode = s.mode ∨ t.mode.getLsbD 4 = false
  responses : t.respFifo ≠ []

/-- What a rule that faults leaves, when it runs in `s`. -/
structure RuleFaults (i : Instr) (s t : State) : Prop where
  cause : ∃ r, commandFault i s.paramFifo = some r ∧ t.faulted = some r
  stat : t.stat = s.stat
  params : t.paramFifo.length ≤ s.paramFifo.length

theorem pushBounded_ne_nil {α : Type} (q : List α) (v : α) : pushBounded q v ≠ [] := by
  cases q with
  | nil => simp
  | cons a q =>
    unfold pushBounded
    split <;> simp

/-- A group's bytes leave something to read, even in a full FIFO. -/
theorem pushAllBounded_ne_nil {α : Type} (q : List α) {vs : List α} (h : vs ≠ []) : pushAllBounded q vs ≠ [] := by
  obtain ⟨init, last, rfl⟩ := List.eq_nil_or_concat vs |>.resolve_left h
  rw [pushAllBounded, List.concat_eq_append, List.foldl_append]
  exact pushBounded_ne_nil _ last

section Answers
variable {i : Instr} {s u : State} {code : IrqCode} {bytes : List Byte}

/-- A rule that ends in a push has answered; `u` is the state it pushes into. -/
theorem RuleAnswers.of_push (hcause : commandFault i s.paramFifo = none) (hfault : u.faulted = s.faulted)
    (hstat : u.stat = statAfter i s.stat) (hmode : u.mode = s.mode ∨ u.mode.getLsbD 4 = false) (hbytes : bytes ≠ []) :
    RuleAnswers i s (u.pushResponse code bytes) :=
  ⟨hcause, hfault, hstat, hmode, pushAllBounded_ne_nil u.respFifo hbytes⟩

theorem RuleFaults.of_starved (hcause : commandFault i s.paramFifo = some .paramFifoEmpty) :
    RuleFaults i s ({ s with paramFifo := [] }.raiseFault .paramFifoEmpty) :=
  ⟨⟨_, hcause, rfl⟩, rfl, Nat.zero_le _⟩

end Answers

theorem playRule_cases {i : Instr}
    (hi : ∀ params, commandFault i params = if params = [] then none else some .playWithParams)
    (hstat : ∀ stat, statAfter i stat = setDriveBits stat .playing) (s : State) :
    RuleAnswers i s (playRule s) ∨ RuleFaults i s (playRule s) := by
  by_cases hs : s.paramFifo = []
  · rw [playRule_of_no_param hs]
    exact .inl (.of_push (by rw [hi, if_pos hs]) rfl (hstat _).symm (.inl rfl) (by simp))
  · rw [playRule_of_param hs]
    exact .inr ⟨⟨_, (hi _).trans (if_neg hs), rfl⟩, rfl, le_rfl⟩

theorem setlocRule_cases (s : State) :
    RuleAnswers .setloc s (setlocRule s) ∨ RuleFaults .setloc s (setlocRule s) := by
  rcases hs : s.paramFifo with _ | ⟨mm, _ | ⟨ss, _ | ⟨ff, extra⟩⟩⟩
  case cons.cons.cons =>
    rw [setlocRule_of_params hs]
    exact .inl (.of_push
      (u := { s with
        paramFifo := extra, seekSector := msfToLba (bcdToDec mm) (bcdToDec ss) (bcdToDec ff) })
      (bytes := [s.stat]) (by simp [commandFault, hs]) rfl rfl (.inl rfl) (by simp))
  all_goals
    rw [setlocRule_starved (by simp [hs])]
    exact .inr (.of_starved (by simp [commandFault, hs]))

theorem setfilterRule_cases (s : State) :
    RuleAnswers .setfilter s (setfilterRule s) ∨ RuleFaults .setfilter s (setfilterRule s) := by
  rcases hs : s.paramFifo with _ | ⟨file, _ | ⟨channel, extra⟩⟩
  case cons.cons =>
    rw [setfilterRule_of_params hs]
    exact .inl (.of_push (by simp [commandFault, hs]) rfl rfl (.inl rfl) (by simp))
  all_goals
    rw [setfilterRule_starved (by simp [hs])]
    exact .inr (.of_starved (by simp [commandFault, hs]))

theorem setmodeRule_cases (s : State) :
    RuleAnswers .setmode s (setmodeRule s) ∨ RuleFaults .setmode s (setmodeRule s) := by
  rcases hs : s.paramFifo with _ | ⟨m, extra⟩
  · rw [setmodeRule_starved (by simp [hs])]
    exact .inr (.of_starved (by simp [commandFault, hs]))
  · cases hbit : m.getLsbD 4
    · rw [setmodeRule_of_clear hs hbit]
      exact .inl (.of_push (u := { s with paramFifo := extra, mode := m }) (bytes := [s.stat])
        (by rw [hs]; exact if_neg (ne_true_of_eq_false hbit)) rfl rfl (.inr hbit) (by simp))
    · rw [setmodeRule_of_set hs hbit]
      exact .inr ⟨⟨_, by rw [hs]; exact if_pos hbit, rfl⟩, rfl, by simp [hs]⟩

theorem getTDRule_cases (s : State) :
    RuleAnswers .getTD s (getTDRule s) ∨ RuleFaults .getTD s (getTDRule s) := by
  rcases hs : s.paramFifo with _ | ⟨t, extra⟩
  · rw [getTDRule_starved (by simp [hs])]
    exact .inr (.of_starved (by simp [commandFault, hs]))
  · rw [getTDRule_of_param hs]
    exact .inl (.of_push (by simp [commandFault, hs]) rfl rfl (.inl rfl) (by simp))

theorem testRule_cases (s : State) :
    RuleAnswers .test s (testRule s) ∨ RuleFaults .test s (testRule s) := by
  rcases hs : s.paramFifo with _ | ⟨sub, extra⟩
  · rw [testRule_starved (by simp [hs])]
    exact .inr (.of_starved (by simp [commandFault, hs]))
  · by_cases hsub : sub = 0x20
    · subst hsub
      rw [testRule_of_version hs]
      exact .inl (.of_push (by simp [commandFault, hs]) rfl rfl (.inl rfl) (by simp))
    · rw [testRule_of_unknown hs hsub]
      exact .inl (.of_push (by simp [commandFault, hs]) rfl rfl (.inl rfl) (by simp))

theorem getIDRule_cases (s : State) :
    RuleAnswers .getID s (getIDRule s) ∨ RuleFaults .getID s (getIDRule s) := by
  cases hshell : statField s.stat .shellOpen
  · cases hdisc : s.disc.isEmpty
    · rw [getIDRule_of_disc hshell hdisc]
      exact .inl (.of_push rfl rfl rfl (.inl rfl) (by simp))
    · rw [getIDRule_of_no_disc hshell hdisc]
      exact .inl (.of_push rfl rfl rfl (.inl rfl) (by simp))
  · rw [getIDRule_of_shellOpen hshell]
    exact .inl (.of_push rfl rfl rfl (.inl rfl) (by simp))

/-- All that the rule of a command can do: it answers, or it faults on its cause. -/
theorem ruleOf_cases {i : Instr} (hi : i.isCommand = true) (s : State) :
    RuleAnswers i s (ruleOf i s) ∨ RuleFaults i s (ruleOf i s) := by
  cases i
  case setloc => exact setlocRule_cases s
  case setfilter => exact setfilterRule_cases s
  case setmode => exact setmodeRule_cases s
  case getTD => exact getTDRule_cases s
  case test => exact testRule_cases s
  case play | getlocP => all_goals exact playRule_cases (fun _ => rfl) (fun _ => rfl) s
  case getID => exact getIDRule_cases s
  case init =>
    exact .inl (.of_push (u := { s.pushStat .firstInt3 with stat := 0x02, mode := 0x00 }) (bytes := [0x02])
      rfl rfl rfl (.inr (by decide : (0x00 : Byte).getLsbD 4 = false)) (by simp))
  case getstat | readN | motorOn | stop | pause | mute | demute | getparam | getTN | seekL | readS | cmdError =>
    all_goals exact .inl (.of_push (bytes := _ :: _) rfl rfl rfl (.inl rfl) (by simp))
  all_goals cases hi

/-! ### A command -/

/-- All that a command can do on a live state: its rule answers and the frame's end follows, or it faults. -/
theorem command_cases {i : Instr} (hi : i.isCommand = true) {s : State} (hlive : s.live) :
    (RuleAnswers i s.clearResponses (ruleOf i s.clearResponses)
        ∧ effectOf i s = (ruleOf i s.clearResponses).finishCommand)
      ∨ RuleFaults i s.clearResponses (effectOf i s) := by
  rw [effectOf_of_isCommand hi]
  rcases ruleOf_cases hi s.clearResponses with answers | faults
  · exact .inl ⟨answers, commandFrame_of_live (answers.faulted.trans hlive)⟩
  · obtain ⟨r, -, hr⟩ := faults.cause
    rw [commandFrame_of_fault hr]
    exact .inr faults

/-- A command that runs to its end has answered. -/
theorem command_answers {i : Instr} (hi : i.isCommand = true) {s t : State} (hexec : exec i s = .next t)
    (hend : t.live) :
    RuleAnswers i s.clearResponses (ruleOf i s.clearResponses) ∧ t = (ruleOf i s.clearResponses).finishCommand := by
  obtain ⟨hlive, rfl⟩ := exec_eq_next_iff.1 hexec
  rcases command_cases hi hlive with answers | faults
  · exact answers
  · obtain ⟨r, -, hr⟩ := faults.cause
    cases hr.symm.trans hend

/-- The fields that no command writes (R182). -/
def hostFields (s : State) :=
  (s.index, s.intEnable, s.stepsUntilReadSect, s.dataBuf, s.readBuf, s.dataLoaded, s.dataBufferIndex, s.disc,
    s.pending, s.trace, s.draws)

/-- Every command operation keeps them. -/
theorem hostFields_keptByCommands (fields) : KeptByCommands fun t => hostFields t = fields where
  pushResponse _ _ _ h := h
  raiseFault _ _ h := h
  setParams _ _ h := h
  setStat _ _ h := h
  setSeek _ _ h := h
  setRead _ _ h := h
  setMode _ _ h := h
  setMuted _ _ h := h
  clearResponses _ h := h
  finishCommand _ h := h

theorem hostFields_command {i : Instr} (hi : i.isCommand = true) (s : State) :
    hostFields (effectOf i s) = hostFields s := by
  rw [effectOf_of_isCommand hi]
  exact command_keeps (hostFields_keptByCommands _) i rfl

theorem faultCause_of_isCommand {i : Instr} (hi : i.isCommand = true) (params : List Byte) :
    faultCause i params = commandFault i params := by
  cases i
  case wrParam | wrCommand => all_goals cases hi
  all_goals rfl

theorem command_faulted {i : Instr} (hi : i.isCommand = true) {s : State} (hlive : s.live) :
    (effectOf i s).faulted = commandFault i s.paramFifo := by
  rcases command_cases hi hlive with ⟨answers, heq⟩ | faults
  · rw [heq, State.finishCommand_faulted, answers.faulted, State.clearResponses_faulted]
    exact hlive.trans answers.cause.symm
  · obtain ⟨r, hcause, hr⟩ := faults.cause
    exact hr.trans hcause.symm

/-- The drive bits that the table of R213 gives. -/
theorem driveBits_statAfter (i : Instr) (stat : Byte) :
    statAfter i stat &&& 0xE0 = match driveAfter i with
      | some d => d.bits
      | none => stat &&& 0xE0 := by
  have motorOff : ∀ stat, setStatField (setDriveBits stat .stopped) .spindleMotorOn false &&& 0xE0 = 0x00 := by decide
  have motorOn : ∀ stat, setStatField stat .spindleMotorOn true &&& 0xE0 = stat &&& 0xE0 := by decide
  cases i
  case play | getlocP | readN | readS | seekL | pause => all_goals exact driveBits_setDriveBits ..
  case stop => exact motorOff stat
  case motorOn => exact motorOn stat
  case init => exact (by decide : setStatField 0x00 .spindleMotorOn true &&& 0xE0 = 0x00)
  all_goals rfl

/-! ### A register access -/

/-- What a register access other than a command can do. -/
structure AccessFrame (i : Instr) (s t : State) : Prop where
  index : (∀ bank value, i ≠ .wrIndex bank value) → t.index = s.index
  irqs : (∀ value, i ≠ .wrIntAck value) → t.irqFifo = s.irqFifo
  faulted : (∀ value, i ≠ .wrParam value) → t.faulted = s.faulted
  stat : t.stat = s.stat
  reads : ∃ bytes : List Byte, t.trace = s.trace ++ bytes.map .regByte

/-- A cell that changes none of these fields and returns no byte. -/
theorem AccessFrame.silent {i : Instr} {s t : State} (hindex : t.index = s.index) (hirqs : t.irqFifo = s.irqFifo)
    (hfaulted : t.faulted = s.faulted) (hstat : t.stat = s.stat) (htrace : t.trace = s.trace) : AccessFrame i s t :=
  ⟨fun _ => hindex, fun _ => hirqs, fun _ => hfaulted, hstat, [], by simpa using htrace⟩

/-- A cell that changes none of these fields and returns a byte. -/
theorem AccessFrame.read {i : Instr} {s t : State} (byte : Byte) (hindex : t.index = s.index)
    (hirqs : t.irqFifo = s.irqFifo) (hfaulted : t.faulted = s.faulted) (hstat : t.stat = s.stat)
    (htrace : t.trace = s.trace ++ [.regByte byte]) : AccessFrame i s t :=
  ⟨fun _ => hindex, fun _ => hirqs, fun _ => hfaulted, hstat, [byte], htrace⟩

theorem effectOf_accessFrame {i : Instr} (hi : i.isCommand = false) (hcmd : ∀ op, i ≠ .wrCommand op) (s : State) :
    AccessFrame i s (effectOf i s) := by
  cases i
  case wrCommand op => exact absurd rfl (hcmd op)
  case rdStatus | rdIntEnable | rdIntFlag => all_goals exact .read _ rfl rfl rfl rfl rfl
  case rdResponse =>
    rw [effectOf]
    split <;> exact .read _ rfl rfl rfl rfl rfl
  case rdData =>
    rw [effectOf, advanceCursor_eq]
    exact .read _ rfl rfl rfl rfl rfl
  case wrIndex bank value =>
    exact ⟨fun h => absurd rfl (h bank value), fun _ => rfl, fun _ => rfl, rfl, [], (List.append_nil _).symm⟩
  case wrParam value =>
    rw [effectOf]
    split
    · exact .silent rfl rfl rfl rfl rfl
    · exact ⟨fun _ => rfl, fun _ => rfl, fun h => absurd rfl (h value), rfl, [], (List.append_nil _).symm⟩
  case wrRequest =>
    rw [effectOf]
    split
    · split <;> exact .silent rfl rfl rfl rfl rfl
    · exact .silent rfl rfl rfl rfl rfl
  case wrIntAck value =>
    rw [effectOf]
    split <;>
      exact ⟨fun _ => rfl, fun h => absurd rfl (h value), fun _ => rfl, rfl, [], (List.append_nil _).symm⟩
  case wrIntEnable | wrSoundMap | wrVol12 | wrVol13 | wrVol22 | wrVol23 | wrVolApply2 | wrVolApply3 =>
    all_goals exact .silent rfl rfl rfl rfl rfl
  all_goals cases hi

/-- An access other than a command that answers a next state. -/
theorem exec_accessFrame {i : Instr} (hi : i.isCommand = false) (hcmd : ∀ op, i ≠ .wrCommand op) {s t : State}
    (h : exec i s = .next t) : AccessFrame i s t := by
  obtain ⟨-, rfl⟩ := exec_eq_next_iff.1 h
  exact effectOf_accessFrame hi hcmd s

/-- Of the accesses only WR_PARAM can fault, with 16 parameters pending (R111, R259). -/
theorem access_faulted {i : Instr} (hi : i.isCommand = false) (hcmd : ∀ op, i ≠ .wrCommand op) {s : State}
    (hlive : s.live) : (effectOf i s).faulted = faultCause i s.paramFifo := by
  have frame := effectOf_accessFrame hi hcmd s
  cases i
  case wrCommand op => exact absurd rfl (hcmd op)
  case wrParam value =>
    by_cases hroom : s.paramFifo.length < 16
    · rw [faultCause, if_pos hroom, effectOf, Config.fifoDepth, if_pos hroom]
      exact hlive
    · rw [faultCause, if_neg hroom, effectOf, Config.fifoDepth, if_neg hroom, State.raiseFault_faulted]
  case rdStatus | rdResponse | rdData | rdIntEnable | rdIntFlag | wrIndex | wrSoundMap | wrVol12 | wrVol13 | wrIntEnable
      | wrVol22 | wrVol23 | wrRequest | wrIntAck | wrVolApply2 | wrVolApply3 =>
    all_goals exact (frame.faulted (by simp)).trans hlive
  all_goals cases hi

/-- A write of a command is the command; so an instruction is a command or another access. -/
theorem command_or_access (i : Instr) :
    (∃ c : Instr, c.isCommand = true ∧ (∀ s, exec i s = exec c s)
        ∧ ∀ params, faultCause i params = commandFault c params)
      ∨ (i.isCommand = false ∧ ∀ op, i ≠ .wrCommand op) := by
  by_cases hi : i.isCommand = true
  · exact .inl ⟨i, hi, fun _ => rfl, faultCause_of_isCommand hi⟩
  · by_cases hcmd : ∃ op, i = .wrCommand op
    · obtain ⟨op, rfl⟩ := hcmd
      exact .inl ⟨_, (decodeCommand_isCommand op).1, exec_wrCommand_eq_exec_decodeCommand op, fun _ => rfl⟩
    · exact .inr ⟨Bool.eq_false_iff.2 hi, fun op h => hcmd ⟨op, h⟩⟩

/-! ### The host calls -/

/-- All that a `step()` can leave: the fields of R201 and R202, and those of the cadence. -/
theorem execStep_frame {s t : State} (h : execStep s = .next t) :
    ∃ irqs resps count lba staged,
      t = { s with
        transmitBusy := false, trace := s.trace ++ stepOutput s, irqFifo := irqs, respFifo := resps,
        stepsUntilReadSect := count, readSector := lba, readBuf := staged } := by
  obtain ⟨-, rfl⟩ := execStep_eq_next_iff.1 h
  exact cadenceStep_frame _

theorem execReadWord_frame {s t : State} (h : execReadWord s = .next t) :
    ∃ cursor word, t = { s with dataBufferIndex := cursor, trace := s.trace ++ [.dmaWord word] } := by
  have hlive : s.live := (entry_eq_next_iff.1 h).1
  rw [execReadWord_of_live hlive] at h
  cases h
  exact ⟨_, _, rfl⟩

theorem execInsert_frame {image : DiscImage} {s t : State} (h : execInsert image s = .next t) :
    t = { s with disc := image, stat := s.stat &&& 0xEF } := by
  rw [execInsert_eq_entry, entry_eq_next_iff] at h
  exact h.2.symm

/-- A fetch leaves the pending codes as they were or adds one INT1 behind them (R210, R254). -/
theorem fetchSector_irqFifo (s : State) :
    s.fetchSector.irqFifo = s.irqFifo ∨ s.fetchSector.irqFifo = s.irqFifo ++ [.secondInt1] := by
  by_cases hkind : (discRead s.disc s.readSector).kind = .invalid
  · rw [fetchSector_invalid hkind]
    exact .inl rfl
  · by_cases hready : isReading s.stat = true ∧ (discRead s.disc s.readSector).kind = .data
    · rw [fetchSector_ready hready.1 hready.2]
      exact (ite_eq_or_eq _ _ _).symm
    · rw [fetchSector_silent hkind hready]
      exact .inl rfl

theorem cadenceStep_irqFifo (s : State) :
    s.cadenceStep.irqFifo = s.irqFifo ∨ s.cadenceStep.irqFifo = s.irqFifo ++ [.secondInt1] := by
  by_cases hrun : isReading s.stat = true ∨ isPlaying s.stat = true
  · by_cases hcount : s.stepsUntilReadSect = 1
    · rw [cadenceStep_expiring hrun hcount]
      exact fetchSector_irqFifo _
    · rw [cadenceStep_counting hrun hcount]
      exact .inl rfl
  · simp only [not_or, Bool.not_eq_true] at hrun
    rw [cadenceStep_idle hrun.1 hrun.2]
    exact .inl rfl

/-! ### The raises of a trace -/

theorem raiseCount_append (a b : List Output) : raiseCount (a ++ b) = raiseCount a + raiseCount b :=
  List.countP_append ..

theorem raiseCount_regBytes (bytes : List Byte) : raiseCount (bytes.map .regByte) = 0 := by
  simp [raiseCount, List.countP_eq_zero]

theorem raiseCount_stepOutput_le (s : State) : raiseCount (stepOutput s) ≤ 1 := by
  unfold stepOutput
  split <;> decide

/-! ### The statements -/

/-- Settles O41: the fields that the end of the frame and a rule that answers leave, read off the status byte. -/
theorem commandsLeaveTheStatusByteBusy : Obligations.CommandsLeaveTheStatusByteBusy := by
  intro i s t hi hexec hend
  have hindex : t.index = s.index := by
    obtain ⟨-, rfl⟩ := exec_eq_next_iff.1 hexec
    exact congrArg (·.1) (hostFields_command hi s)
  obtain ⟨answers, rfl⟩ := command_answers hi hexec hend
  obtain ⟨h0, h2, h3, h4, h5, h6, h7⟩ := statusByte_fields (ruleOf i s.clearResponses).finishCommand
  exact ⟨h0.trans hindex, h2, h3, h4, h5.trans (decide_eq_true answers.responses), h6, h7⟩

/-- Settles O42: what every command operation keeps, every command keeps. -/
theorem commandsLeaveTheHostStateAlone : Obligations.CommandsLeaveTheHostStateAlone := by
  intro i s t hi hexec
  obtain ⟨-, rfl⟩ := exec_eq_next_iff.1 hexec
  simpa only [hostFields, Prod.mk.injEq] using hostFields_command hi s

/-- Settles O44: a command keeps the bank, an access but WR_INDEX does, and the host calls do not name it. -/
theorem onlyWriteIndexChangesTheBank : Obligations.OnlyWriteIndexChangesTheBank := by
  intro s t
  refine ⟨fun i hexec hindex => ?_, fun h => ?_, fun h => ?_, fun image h => ?_⟩
  · rcases command_or_access i with ⟨c, hc, heq, -⟩ | ⟨hi, hcmd⟩
    · exact (commandsLeaveTheHostStateAlone c s t hc (heq s ▸ hexec)).1
    · exact (exec_accessFrame hi hcmd hexec).index hindex
  · obtain ⟨_, _, _, _, _, rfl⟩ := execStep_frame h
    rfl
  · obtain ⟨_, _, rfl⟩ := execReadWord_frame h
    rfl
  · rw [execInsert_frame h]

/-- Settles O45: a command that answers leaves `statAfter`, whose drive bits are the table's; the rest keep the byte. -/
theorem onlyTheListedCommandsChangeTheDriveState : Obligations.OnlyTheListedCommandsChangeTheDriveState := by
  intro s t
  refine ⟨fun i hi hexec hend => ?_, fun i hi hcmd hexec => ?_, fun h => ?_, fun h => ?_, fun image h => ?_⟩
  · obtain ⟨answers, rfl⟩ := command_answers hi hexec hend
    rw [State.finishCommand_stat, answers.stat]
    exact driveBits_statAfter i s.stat
  · exact (exec_accessFrame hi hcmd hexec).stat
  · obtain ⟨_, _, _, _, _, rfl⟩ := execStep_frame h
    rfl
  · obtain ⟨_, _, rfl⟩ := execReadWord_frame h
    rfl
  · rw [execInsert_frame h]

/-- Settles O46: a command leaves the trace alone, an access adds bytes, a word read a word, and `step()` its output. -/
theorem onlyStepRaisesAndAtMostOnce : Obligations.OnlyStepRaisesAndAtMostOnce := by
  intro s t
  refine ⟨fun i hexec => ?_, fun h => ?_, fun image h => ?_, fun h => ?_⟩
  · rcases command_or_access i with ⟨c, hc, heq, -⟩ | ⟨hi, hcmd⟩
    · obtain ⟨-, -, -, -, -, -, -, -, -, htrace, -⟩ := commandsLeaveTheHostStateAlone c s t hc (heq s ▸ hexec)
      rw [htrace]
    · obtain ⟨bytes, htrace⟩ := (exec_accessFrame hi hcmd hexec).reads
      rw [htrace, raiseCount_append, raiseCount_regBytes, Nat.add_zero]
  · obtain ⟨_, _, rfl⟩ := execReadWord_frame h
    exact raiseCount_append s.trace _
  · rw [execInsert_frame h]
  · obtain ⟨_, _, _, _, _, rfl⟩ := execStep_frame h
    have hcount := raiseCount_append s.trace (stepOutput s)
    have hone := raiseCount_stepOutput_le s
    dsimp only
    omega

/-- Settles O47: a command faults on its cause, WR_PARAM on a full FIFO, and no other access faults. -/
theorem faultsExactlyOnTheListedCauses : Obligations.FaultsExactlyOnTheListedCauses := by
  intro i s _ hlive
  rcases command_or_access i with ⟨c, hc, heq, hcause⟩ | ⟨hi, hcmd⟩
  · exact ⟨_, (heq s).trans (exec_of_live hlive c), (command_faulted hc hlive).trans (hcause _).symm⟩
  · exact ⟨_, exec_of_live hlive i, access_faulted hi hcmd hlive⟩

/-- Settles O48: of the accesses only the acknowledge and the commands write `irq_fifo`, and a tick's cadence at most
adds INT1. -/
theorem frontCodeStaysUntilAckOrCommand : Obligations.FrontCodeStaysUntilAckOrCommand := by
  intro s t code rest hfifo
  refine ⟨fun i hi hcmd hack hexec => ?_, fun h => ?_, fun image h => ?_, fun h => ?_⟩
  · exact ((exec_accessFrame hi hcmd hexec).irqs hack).trans hfifo
  · obtain ⟨_, _, rfl⟩ := execReadWord_frame h
    exact hfifo
  · rw [execInsert_frame h]
    exact hfifo
  · obtain ⟨-, rfl⟩ := execStep_eq_next_iff.1 h
    rw [← hfifo]
    exact cadenceStep_irqFifo { s with transmitBusy := false, trace := s.trace ++ stepOutput s }

end Sys2Proof.Machine
end

section
/-! The invariants (spec/10_state.md R51): they hold of the reset state, and each entry point keeps them, so every step
does. -/

namespace Sys2Proof.Machine

/-! ### The stat byte -/

/-- The two clauses of the invariants about the stat byte: the drive bits, and the bits stuck at 0. -/
def statLegal (stat : Byte) : Prop :=
  driveLegal stat ∧ statField stat .error = false ∧ statField stat .seekError = false ∧ statField stat .idError = false

theorem statLegal_zero : statLegal 0x00 := by
  unfold statLegal driveLegal
  decide

theorem statLegal_setDriveBits {stat : Byte} (h : statLegal stat) (d : DriveState) :
    statLegal (setDriveBits stat d) := by
  obtain ⟨-, herror, hseek, hid⟩ := h
  refine ⟨driveLegal_setDriveBits stat d, ?_, ?_, ?_⟩
  · rwa [statField_setDriveBits_low stat d .error (by simp)]
  · rwa [statField_setDriveBits_low stat d .seekError (by simp)]
  · rwa [statField_setDriveBits_low stat d .idError (by simp)]

/-- The motor bit and the shell bit are in neither clause. -/
theorem statLegal_setStatField {stat : Byte} (h : statLegal stat) {f : StatField}
    (hf : f = .spindleMotorOn ∨ f = .shellOpen) (b : Bool) : statLegal (setStatField stat f b) := by
  obtain ⟨hdrive, hstuck⟩ := h
  rcases hf with rfl | rfl
  · exact ⟨driveLegal_setStatField hdrive _ b (by simp), by simpa [statField_setStatField] using hstuck⟩
  · exact ⟨driveLegal_setStatField hdrive _ b (by simp), by simpa [statField_setStatField] using hstuck⟩

theorem statLegal_statAfter {stat : Byte} (h : statLegal stat) (i : Instr) : statLegal (statAfter i stat) := by
  cases i
  case stop => exact statLegal_setStatField (statLegal_setDriveBits h .stopped) (.inl rfl) false
  case motorOn => exact statLegal_setStatField h (.inl rfl) true
  case init => exact statLegal_setStatField statLegal_zero (.inl rfl) true
  case play | getlocP | readN | readS | seekL | pause => all_goals exact statLegal_setDriveBits h _
  all_goals exact h

theorem Inv.statLegal {s : State} (h : Inv s) : statLegal s.stat := ⟨h.drive, h.stuckStat⟩

/-! ### The state operations -/

theorem one_le_readSectorDelaySteps : 1 ≤ Config.readSectorDelaySteps := by
  unfold Config.readSectorDelaySteps
  omega

theorem Inv.emit {s : State} (h : Inv s) (o : Output) : Inv (s.emit o) := { h with }

theorem Inv.raiseFault {s : State} (h : Inv s) (r : Fault) : Inv (s.raiseFault r) :=
  { h with modeBit4 := nofun }

/-- A cursor that advances over bytes that are left stays in the sector, and in a cleared buffer there are none. -/
theorem Inv.advance {s : State} (h : Inv s) {n : Nat} (hn : n ≤ bytesLeft s) (trace : List Output) :
    Inv { s with dataBufferIndex := s.dataBufferIndex + n, trace := trace } := by
  have hcursor : s.dataBufferIndex ≤ 2340 := h.cursor
  refine { h with cursor := ?_, clearedCursor := fun hcleared => ?_ }
  · show s.dataBufferIndex + n ≤ 2340
    unfold bytesLeft at hn
    split at hn
    · split at hn <;> omega
    · omega
  · have hnone : bytesLeft s = 0 := if_neg (ne_true_of_eq_false hcleared)
    have hzero := h.clearedCursor hcleared
    show s.dataBufferIndex + n = 0
    omega

/-! ### The instructions -/

/-- The bounds of the two FIFOs that a command fills, and the adpcm bit. -/
def responsesBounded (s : State) : Prop :=
  s.irqFifo.length ≤ 16 ∧ s.respFifo.length ≤ 16 ∧ s.adpcmFifoEmpty = false

theorem responsesBounded_keptByCommands : KeptByCommands responsesBounded where
  pushResponse _ code bytes h :=
    ⟨pushBounded_length_le h.1 code, pushAllBounded_length_le h.2.1 bytes, h.2.2⟩
  raiseFault _ _ h := h
  setParams _ _ h := h
  setStat _ _ h := h
  setSeek _ _ h := h
  setRead _ _ h := h
  setMode _ _ h := h
  setMuted _ _ h := h
  clearResponses _ h := ⟨Nat.zero_le _, Nat.zero_le _, h.2.2⟩
  finishCommand _ h := ⟨h.1, h.2.1, rfl⟩

/-- What a command leaves in the fields that its rule writes: a legal stat byte, a bounded `param_fifo`, and mode bit 4
clear unless it faults. -/
theorem command_ruleFields {i : Instr} (hi : i.isCommand = true) {s : State} (hlive : s.live) (h : Inv s) :
    statLegal (effectOf i s).stat ∧ (effectOf i s).paramFifo.length ≤ 16
      ∧ ((effectOf i s).live → (effectOf i s).mode.getLsbD 4 = false) := by
  rcases command_cases hi hlive with ⟨answers, heq⟩ | faults
  · rw [heq]
    refine ⟨?_, Nat.zero_le _, fun _ => ?_⟩
    · rw [State.finishCommand_stat, answers.stat]
      exact statLegal_statAfter h.statLegal i
    · rw [State.finishCommand_mode]
      rcases answers.mode with hsame | hclear
      · rw [hsame]
        exact h.modeBit4 hlive
      · exact hclear
  · obtain ⟨r, -, hr⟩ := faults.cause
    refine ⟨?_, faults.params.trans h.params, fun hend => nomatch hr.symm.trans hend⟩
    rw [faults.stat]
    exact h.statLegal

theorem command_inv {i : Instr} (hi : i.isCommand = true) {s : State} (hlive : s.live) (h : Inv s) :
    Inv (effectOf i s) := by
  have hhost := hostFields_command hi s
  simp only [hostFields, Prod.mk.injEq] at hhost
  obtain ⟨-, -, hcount, -, -, hloaded, hcursor, hdisc, hpending, -, -⟩ := hhost
  obtain ⟨hirqs, hresponses, hadpcm⟩ : responsesBounded (effectOf i s) := by
    rw [effectOf_of_isCommand hi]
    exact command_keeps responsesBounded_keptByCommands i ⟨h.irqs, h.responses, h.stuckAdpcm⟩
  obtain ⟨⟨hdrive, hstuck⟩, hparams, hmode⟩ := command_ruleFields hi hlive h
  constructor
  case params => exact hparams
  case responses => exact hresponses
  case irqs => exact hirqs
  case drive => exact hdrive
  case counterLow => exact hcount ▸ h.counterLow
  case counterHigh => exact hcount ▸ h.counterHigh
  case cursor => exact hcursor ▸ h.cursor
  case clearedCursor => exact hcursor ▸ hloaded ▸ h.clearedCursor
  case stuckStat => exact hstuck
  case stuckAdpcm => exact hadpcm
  case modeBit4 => exact hmode
  case discWf => exact hdisc ▸ h.discWf
  case pendingWf => exact hpending ▸ h.pendingWf

theorem access_inv {i : Instr} (hi : i.isCommand = false) (hcmd : ∀ op, i ≠ .wrCommand op) {s : State} (h : Inv s) :
    Inv (effectOf i s) := by
  cases i
  case wrCommand op => exact absurd rfl (hcmd op)
  case rdStatus | rdIntEnable | rdIntFlag => all_goals exact h.emit _
  case rdResponse =>
    rw [effectOf]
    split
    next v rest hfifo =>
      have hrest : (v :: rest).length ≤ Config.fifoDepth := hfifo ▸ h.responses
      exact { h with responses := Nat.le_of_succ_le hrest }
    next => exact { h with }
  case rdData =>
    rw [effectOf, advanceCursor_eq]
    exact h.advance (Nat.min_le_right ..) _
  case wrParam value =>
    rw [effectOf]
    split
    next hroom => exact { h with params := by simpa using hroom }
    next => exact h.raiseFault _
  case wrRequest value =>
    rw [effectOf]
    split
    · split
      · exact h
      · exact { h with cursor := Nat.zero_le _, clearedCursor := nofun }
    · exact { h with cursor := Nat.zero_le _, clearedCursor := fun _ => rfl }
  case wrIntAck value =>
    have hirqs : s.irqFifo.tail.length ≤ 16 := by
      rw [List.length_tail]
      exact (Nat.sub_le _ _).trans h.irqs
    rw [effectOf]
    split
    · exact { h with irqs := hirqs, params := Nat.zero_le _ }
    · exact { h with irqs := hirqs }
  case wrIndex | wrIntEnable => all_goals exact { h with }
  case wrSoundMap | wrVol12 | wrVol13 | wrVol22 | wrVol23 | wrVolApply2 | wrVolApply3 => all_goals exact h
  all_goals cases hi

theorem exec_inv {i : Instr} {s t : State} (h : Inv s) (hexec : exec i s = .next t) : Inv t := by
  rcases command_or_access i with ⟨c, hc, heq, -⟩ | ⟨hi, hcmd⟩
  · rw [heq] at hexec
    obtain ⟨hlive, rfl⟩ := exec_eq_next_iff.1 hexec
    exact command_inv hc hlive h
  · obtain ⟨-, rfl⟩ := exec_eq_next_iff.1 hexec
    exact access_inv hi hcmd h

/-! ### The host calls -/

theorem fetchSector_inv {s : State} (h : Inv s) : Inv s.fetchSector := by
  by_cases hkind : (discRead s.disc s.readSector).kind = .invalid
  · rw [fetchSector_invalid hkind]
    exact { h with }
  · by_cases hready : isReading s.stat = true ∧ (discRead s.disc s.readSector).kind = .data
    · rw [fetchSector_ready hready.1 hready.2]
      exact { h with irqs := pushBounded_length_le h.irqs _, responses := pushBounded_length_le h.responses _ }
    · rw [fetchSector_silent hkind hready]
      exact { h with }

/-- The counter falls to 1 and no further, and is reloaded to its upper bound. -/
theorem cadenceStep_inv {s : State} (h : Inv s) : Inv s.cadenceStep := by
  by_cases hrun : isReading s.stat = true ∨ isPlaying s.stat = true
  · by_cases hcount : s.stepsUntilReadSect = 1
    · rw [cadenceStep_expiring hrun hcount]
      exact fetchSector_inv { h with counterLow := one_le_readSectorDelaySteps, counterHigh := le_rfl }
    · rw [cadenceStep_counting hrun hcount]
      have hlow := h.counterLow
      have hhigh := h.counterHigh
      exact { h with counterLow := by dsimp only; omega, counterHigh := by dsimp only; omega }
  · simp only [not_or, Bool.not_eq_true] at hrun
    rw [cadenceStep_idle hrun.1 hrun.2]
    exact h

theorem execStep_inv {s t : State} (h : Inv s) (hexec : execStep s = .next t) : Inv t := by
  obtain ⟨-, rfl⟩ := execStep_eq_next_iff.1 hexec
  exact cadenceStep_inv { h with }

theorem execReadWord_inv {s t : State} (h : Inv s) (hexec : execReadWord s = .next t) : Inv t := by
  have hlive : s.live := (entry_eq_next_iff.1 hexec).1
  rw [execReadWord_of_live hlive] at hexec
  cases hexec
  exact h.advance (Nat.min_le_right ..) _

theorem execInsert_inv {image : DiscImage} (hwf : image.wf = true) {s t : State} (h : Inv s)
    (hexec : execInsert image s = .next t) : Inv t := by
  obtain ⟨hdrive, hstuck⟩ : statLegal (s.stat &&& 0xEF) := by
    rw [← setStatField_shellOpen_false]
    exact statLegal_setStatField h.statLegal (.inr rfl) false
  rw [execInsert_frame hexec]
  exact { h with discWf := hwf, drive := hdrive, stuckStat := hstuck }

/-! ### The step -/

theorem runEntryPoint_inv {e : EntryPoint} (hwf : ∀ image, e = .insert image → image.wf = true) {s t : State}
    (h : Inv s) (hrun : runEntryPoint e s = .next t) : Inv t := by
  cases e with
  | access i => exact exec_inv h hrun
  | step => exact execStep_inv h hrun
  | readWord => exact execReadWord_inv h hrun
  | insert image => exact execInsert_inv (hwf image rfl) h hrun
  | none r => cases hrun

/-- Only the loader's call inserts an image. -/
theorem eq_hostInsert_of_entryPointOf {index : Index} {tr : Transaction} {image : DiscImage}
    (h : entryPointOf index tr = .insert image) : tr = .hostInsert image := by
  cases tr with
  | hostInsert image' =>
    cases h
    rfl
  | guestRead a =>
    simp only [entryPointOf] at h
    split at h <;> cases h
  | guestWrite a value =>
    simp only [entryPointOf] at h
    split at h <;> cases h
  | guestWide | hostStep | hostReadWord => cases h

/-! ### The statements -/

/-- Settles O60: an idle step changes nothing; any other takes a transaction, and its entry point keeps the
invariants. -/
theorem everyStepKeepsTheInvariants : Obligations.EveryStepKeepsTheInvariants := by
  intro s t h hstep
  cases hfault : s.faulted with
  | some reason =>
    rw [step_of_faulted hfault] at hstep
    cases hstep
  | none =>
    cases hpending : s.pending with
    | nil =>
      rw [step_of_idle hfault hpending] at hstep
      cases hstep
      exact h
    | cons tr rest =>
      rw [step_of_pending hfault hpending] at hstep
      have hwf : ∀ image, .hostInsert image ∈ tr :: rest → image.wf = true := hpending ▸ h.pendingWf
      refine runEntryPoint_inv (fun image hinsert => ?_) (s := { s with pending := rest }) ?_ hstep
      · exact hwf image (eq_hostInsert_of_entryPointOf hinsert ▸ List.mem_cons_self)
      · exact { h with pendingWf := fun image hmem => hwf image (List.mem_cons_of_mem tr hmem) }

/-- Settles O9: each clause is one of the reset values. -/
theorem resetMeetsTheInvariants : Obligations.ResetMeetsTheInvariants := by
  constructor
  case drive =>
    unfold driveLegal
    decide
  case counterLow => exact one_le_readSectorDelaySteps
  case counterHigh => exact le_rfl
  case modeBit4 => exact fun _ => by decide
  case pendingWf => exact nofun
  all_goals decide

end Sys2Proof.Machine
end

section
/-! The arithmetic (spec/41_command_interpreter.md R149 to R152): BCD and sector numbers. -/

namespace Sys2Proof.Machine

/-- A byte is its two nibbles (R150). -/
theorem ofNat_nibbles (b : Byte) : BitVec.ofNat 8 (b.toNat / 16 * 16 + b.toNat % 16) = b := by
  rw [Nat.div_add_mod', BitVec.ofNat_toNat, BitVec.setWidth_eq]

/-- The nibbles of a BCD byte of a number below 100 are its tens and its units. -/
theorem bcdToDec_decToBcd {n : Nat} (h : n < 100) : bcdToDec (decToBcd n) = n := by
  rw [bcdToDec_eq, decToBcd_natCast, BitVec.toNat_ofNat]
  omega

theorem decToBcd_bcdToDec {b : Byte} (hlow : b.toNat % 16 ≤ 9) : decToBcd (bcdToDec b) = b := by
  have htens : bcdToDec b / 10 = b.toNat / 16 := by
    rw [bcdToDec_eq]
    omega
  have hunits : bcdToDec b % 10 = b.toNat % 16 := by
    rw [bcdToDec_eq]
    omega
  rw [decToBcd_natCast, htens, hunits, ofNat_nibbles]

/-- Settles O58: the conversions are sums of nibbles, and the division by 10 takes them apart. -/
theorem bcdConversionsAreInverse : Obligations.BcdConversionsAreInverse :=
  ⟨bcdToDec_eq_nibbles, decToBcd_natCast, fun _ h => bcdToDec_decToBcd h, fun _ _ hlow => decToBcd_bcdToDec hlow⟩

/-- Settles O59: seconds and frames are below their bases, so the divisions give them back. -/
theorem msfRoundTripIsLossless : Obligations.MsfRoundTripIsLossless := by
  intro m s f _ hs hs' hf hf'
  refine ⟨msfToLba_eq m s f, ?_⟩
  rw [lbaToMsf, msfToLba_eq, Config.lbaLeadIn, Config.framesPerSecond, Position.mk.injEq]
  omega

end Sys2Proof.Machine
end
